-- ==== Sys2Proof/Word.lean ====
section
/-! DEFINITION. Bytes, words and two-word blocks (00_scope.md R6, R8, R11). -/

namespace Sys2Proof

/-- A byte, 0 .. 255 (R11). -/
abbrev Byte := BitVec 8

/-- A 32-bit unsigned word (R6, R8). `+`, `-` and `<<<` on it reduce modulo 2^32 at the operation, `>>>` fills with
zeros, `^^^` is exclusive OR: the word arithmetic of R8 is BitVec's own. -/
abbrev Word := BitVec 32

/-- Two words: a block `v[0], v[1]`, or a chaining value (R23, R26). -/
structure Block where
  v0 : Word
  v1 : Word
deriving DecidableEq, Repr

/-- The key file `k[0..3]` (R25). -/
structure Key where
  k0 : Word
  k1 : Word
  k2 : Word
  k3 : Word
deriving DecidableEq, Repr

end Sys2Proof
end

