-- ==== Sys2Proof/Syntax.lean ====
section
/-! DEFINITION. The commands of the engine: one constructor per row of spec/opcode_table.json (30_encoding.md R82). -/

namespace Sys2Proof

/-- The six commands. `skip` is SKIP_PADDING (R73), `ivp` is IV_PRESENT (R74). A bit a command does not read (R78, R82)
is no operand: the decoder R79 drops it (log 11). Every term is well formed: each operand fills a one-bit field. -/
inductive Instr where
  /-- ENCIPHER, one 8-byte block (R120). -/
  | encipher
  /-- DECIPHER, one 8-byte block (R121). -/
  | decipher
  /-- ENCRYPT.ECB, a message (R171). -/
  | encryptEcb (skip : Bool)
  /-- ENCRYPT.CBC, a message (R172). -/
  | encryptCbc (skip ivp : Bool)
  /-- DECRYPT.ECB, a message (R174). -/
  | decryptEcb (skip : Bool)
  /-- DECRYPT.CBC, a message (R175). -/
  | decryptCbc (skip ivp : Bool)
deriving DecidableEq, Repr

end Sys2Proof
end

