-- ==== Sys2Proof/Decode.lean ====
section
/-! DEFINITION. The command word, its decoder and its encoder (30_encoding.md R70 to R83). -/

namespace Sys2Proof

/-- CMD[3:0] (R70). -/
def cmdOp (c : Word) : BitVec 4 := c.extractLsb' 0 4

/-- CMD[7:4] (R70, R72). -/
def cmdMode (c : Word) : BitVec 4 := c.extractLsb' 4 4

/-- CMD[8] (R70, R73). -/
def cmdSkip (c : Word) : Bool := c.getLsbD 8

/-- CMD[9] (R70, R74). -/
def cmdIvp (c : Word) : Bool := c.getLsbD 9

/-- CMD[31:10] (R70, R75). -/
def cmdRsvd (c : Word) : BitVec 22 := c.extractLsb' 10 22

/-- The decoder's verdict (R79). -/
inductive Decoded where
  | instr (i : Instr)
  | illegal (c : Word)
  | unsupported (mode : BitVec 4)
deriving DecidableEq, Repr

/-- R79, total on every 32-bit word. -/
def decode (c : Word) : Decoded :=
  if cmdRsvd c ≠ 0 then .illegal c
  else if cmdOp c = 1 then .instr .encipher
  else if cmdOp c = 2 then .instr .decipher
  else if cmdOp c = 3 then
    if cmdMode c = 0 then .instr (.encryptEcb (cmdSkip c))
    else if cmdMode c = 1 then .instr (.encryptCbc (cmdSkip c) (cmdIvp c))
    else .unsupported (cmdMode c)
  else if cmdOp c = 4 then
    if cmdMode c = 0 then .instr (.decryptEcb (cmdSkip c))
    else if cmdMode c = 1 then .instr (.decryptCbc (cmdSkip c) (cmdIvp c))
    else .unsupported (cmdMode c)
  else .illegal c

/-- R70's layout: reserved bits zero, then IV_PRESENT, SKIP_PADDING, MODE, OP. -/
def cmdWord (op mode : BitVec 4) (skip ivp : Bool) : Word :=
  0#22 ++ BitVec.ofBool ivp ++ BitVec.ofBool skip ++ mode ++ op

/-- The command word an assembler writes for a command (R84): unread bits are 0. -/
def encode : Instr → Word
  | .encipher => cmdWord 1 0 false false
  | .decipher => cmdWord 2 0 false false
  | .encryptEcb skip => cmdWord 3 0 skip false
  | .encryptCbc skip ivp => cmdWord 3 1 skip ivp
  | .decryptEcb skip => cmdWord 4 0 skip false
  | .decryptCbc skip ivp => cmdWord 4 1 skip ivp

/-- The bits of CMD a command reads (R78, R82): the mask of its row and its own operand bits. -/
def readMask : Instr → Word
  | .encipher => 0xFFFFFC0F
  | .decipher => 0xFFFFFC0F
  | .encryptEcb _ => 0xFFFFFDFF
  | .encryptCbc _ _ => 0xFFFFFFFF
  | .decryptEcb _ => 0xFFFFFDFF
  | .decryptCbc _ _ => 0xFFFFFFFF

/-- One row of the opcode map (R82): a word w selects it when `w &&& mask = pattern`. -/
structure OpcodeRow where
  mnemonic : String
  pattern : Word
  mask : Word
deriving DecidableEq, Repr

/-- R82. -/
def OpcodeRow.selects (r : OpcodeRow) (w : Word) : Bool := w &&& r.mask == r.pattern

/-- The row of a command (R82). -/
def rowOf : Instr → OpcodeRow
  | .encipher => ⟨"ENCIPHER", 0x00000001, 0xFFFFFC0F⟩
  | .decipher => ⟨"DECIPHER", 0x00000002, 0xFFFFFC0F⟩
  | .encryptEcb _ => ⟨"ENCRYPT.ECB", 0x00000003, 0xFFFFFCFF⟩
  | .encryptCbc _ _ => ⟨"ENCRYPT.CBC", 0x00000013, 0xFFFFFCFF⟩
  | .decryptEcb _ => ⟨"DECRYPT.ECB", 0x00000004, 0xFFFFFCFF⟩
  | .decryptCbc _ _ => ⟨"DECRYPT.CBC", 0x00000014, 0xFFFFFCFF⟩

/-- The opcode map, R82: the complete set of commands the decoder accepts. -/
def opcodeMap : List OpcodeRow :=
  [rowOf .encipher, rowOf .decipher, rowOf (.encryptEcb false), rowOf (.encryptCbc false false),
   rowOf (.decryptEcb false), rowOf (.decryptCbc false false)]

/-- The word the host's table numbering gives: the low `nbits` bits of `w`, every bit above them 0. CMD crosses the port
as one whole 32-bit value (D27), so there is no byte order to undo. -/
def tableWord (nbits w : Nat) : Word := BitVec.ofNat 32 (w % 2 ^ nbits)

/-- The instruction the decoder reads from a word given in the table's numbering, none where it refuses. -/
def decodeTableWord (nbits w : Nat) : Option Instr :=
  match decode (tableWord nbits w) with
  | .instr i => some i
  | .illegal _ => none
  | .unsupported _ => none

end Sys2Proof
end

