-- ==== Sys2Proof/Machine/Ports.lean ====
section
/-! DEFINITION. What crosses the ports REQ and RSP (30_encoding.md R76, R80), the moves of the host (10_state.md R35,
R37, 70_reset_and_hazards.md R230) and the sequencer's phases (10_state.md R27). -/

namespace Sys2Proof.Machine

/-- A request (R76). The byte sequences are separate from the length fields: R35 says when they agree. -/
structure Request where
  cmd : Word
  keyLen : BitVec 32
  key : List Byte
  ivLen : BitVec 32
  iv : List Byte
  dataLen : BitVec 32
  data : List Byte
deriving DecidableEq, Repr

/-- A response (R80). -/
structure Response where
  status : Word
  errInfo : Word
  outLen : BitVec 32
  out : List Byte
deriving DecidableEq, Repr

/-- The nine values of PHASE (R27). -/
inductive Phase where
  | idle | validate | load | fetch | round | store | unpad | finish | respond
deriving DecidableEq, Repr

/-- What the host agent does next (log 5). `engine` is no action of the host: it leaves one step to the engine, and so
says between which two steps the next move falls. -/
inductive HostMove where
  /-- Put a request on REQ (R35). -/
  | submit (r : Request)
  /-- Take the response from RSP (R37). -/
  | take
  /-- Leave the engine one step. -/
  | engine
  /-- The external reset event (R230). -/
  | reset
deriving DecidableEq, Repr

end Sys2Proof.Machine
end

