-- ==== Sys2Proof/Machine/Flags.lean ====
section
/-! DEFINITION. The engine has no flags (10_state.md R22): "The only outcome indicator is the status code of the
response". This file holds the status codes (30_encoding.md R81), the error kinds and their ERR_INFO (60_exceptions.md
R201, R202), and the checks that compute them (R203 to R212). -/

namespace Sys2Proof.Machine

/-- The error kinds (R201). -/
inductive ErrorKind where
  | unsupportedMode | unalignedData | keyLength | blockLength | ivLength | badPadding | illegalCommand | capacity
deriving DecidableEq, Repr

/-- The status code of a kind (R81, R201). -/
def ErrorKind.code : ErrorKind → BitVec 4
  | .unsupportedMode => 1
  | .unalignedData => 2
  | .keyLength => 3
  | .blockLength => 4
  | .ivLength => 5
  | .badPadding => 6
  | .illegalCommand => 7
  | .capacity => 8

/-- An error with its ERR_INFO (R202). -/
structure Error where
  kind : ErrorKind
  info : Word
deriving DecidableEq, Repr

/-- ERR_INFO of BAD_PADDING on an empty output (R202). -/
def noByteInfo : Word := 0xFFFFFFFF

/-- `Validate(Q)` (R203), with MAX_MSG_BYTES as its argument. -/
def validate (cap : Nat) (q : Request) : Option Error :=
  let op := cmdOp q.cmd
  let mode := cmdMode q.cmd
  let n := q.dataLen.toNat
  if cmdRsvd q.cmd ≠ 0 ∨ ¬(op = 1 ∨ op = 2 ∨ op = 3 ∨ op = 4) then some ⟨.illegalCommand, q.cmd⟩
  else if (op = 3 ∨ op = 4) ∧ ¬(mode = 0 ∨ mode = 1) then some ⟨.unsupportedMode, mode.setWidth 32⟩
  else if q.keyLen ≠ 16 then some ⟨.keyLength, q.keyLen⟩
  else if (op = 1 ∨ op = 2) ∧ q.dataLen ≠ 8 then some ⟨.blockLength, q.dataLen⟩
  else if (op = 3 ∨ op = 4) ∧ n > cap then some ⟨.capacity, q.dataLen⟩
  else if (op = 3 ∨ op = 4) ∧ mode = 1 ∧ cmdIvp q.cmd = true ∧ q.ivLen ≠ 8 then some ⟨.ivLength, q.ivLen⟩
  else if ((op = 3 ∧ cmdSkip q.cmd = true) ∨ op = 4) ∧ n % 8 ≠ 0 then some ⟨.unalignedData, q.dataLen⟩
  else none

/-- The checks of R203 that a decoded ENCIPHER or DECIPHER is left with: KEY_LENGTH, BLOCK_LENGTH (R208, R209). -/
def blockCommandError (q : Request) : Option Error :=
  if q.keyLen ≠ 16 then some ⟨.keyLength, q.keyLen⟩
  else if q.dataLen ≠ 8 then some ⟨.blockLength, q.dataLen⟩
  else none

/-- The checks of R203 that a decoded message command is left with, in R203's order: KEY_LENGTH, CAPACITY, IV_LENGTH
where an IV is read (CBC with IV_PRESENT = 1), UNALIGNED_DATA where the length must be a multiple of 8 (R57). -/
def messageError (cap : Nat) (readsIv aligned : Bool) (q : Request) : Option Error :=
  if q.keyLen ≠ 16 then some ⟨.keyLength, q.keyLen⟩
  else if q.dataLen.toNat > cap then some ⟨.capacity, q.dataLen⟩
  else if readsIv = true ∧ q.ivLen ≠ 8 then some ⟨.ivLength, q.ivLen⟩
  else if aligned = true ∧ q.dataLen.toNat % 8 ≠ 0 then some ⟨.unalignedData, q.dataLen⟩
  else none

/-- The operand checks of each command (R203). -/
def operandError (cap : Nat) (q : Request) : Instr → Option Error
  | .encipher => blockCommandError q
  | .decipher => blockCommandError q
  | .encryptEcb skip => messageError cap false skip q
  | .encryptCbc skip ivp => messageError cap ivp skip q
  | .decryptEcb _ => messageError cap false true q
  | .decryptCbc _ ivp => messageError cap ivp true q

/-- Unpad's test of the last output byte `p` of an output of `len` bytes (R167): the error, or none where `p` bytes are
to be removed. -/
def padError (p : Byte) (len : Nat) : Option Error :=
  if p = 0 ∨ p.toNat > 8 ∨ p.toNat > len then some ⟨.badPadding, p.setWidth 32⟩ else none

end Sys2Proof.Machine
end

