-- ==== Sys2Proof/Machine/Round.lean ====
section
/-! DEFINITION. The Feistel round engine on words (41_round_engine.md R110 to R118). -/

namespace Sys2Proof.Machine

/-- DELTA (R110). -/
def delta : Word := 0x9E3779B9

/-- LIMIT = DELTA × 32 mod 2^32 (R110). -/
def limit : Word := 0xC6EF3720

/-- ROUNDS (R6). -/
def rounds : Nat := 32

/-- K[j] (R25). -/
def keyAt (k : Key) : Fin 4 → Word
  | 0 => k.k0
  | 1 => k.k1
  | 2 => k.k2
  | 3 => k.k3

/-- `SUM & 3`, the key index of the y-update (R113). -/
def yIndex (sum : Word) : Fin 4 := Fin.ofNat 4 (sum &&& 3).toNat

/-- `(SUM >> 11) & 3`, the key index of the z-update (R113). -/
def zIndex (sum : Word) : Fin 4 := Fin.ofNat 4 ((sum >>> 11) &&& 3).toNat

/-- F (R111). -/
def mixF (x : Word) : Word := ((x <<< 4) ^^^ (x >>> 5)) + x

/-- G (R111). -/
def mixG (k : Key) (x s : Word) (j : Fin 4) : Word := mixF x ^^^ (s + keyAt k j)

/-- The registers a round reads and writes (R23, R24). -/
structure RoundRegs where
  y : Word
  z : Word
  sum : Word
deriving DecidableEq, Repr

/-- EncRound (R113, R235): the z-update reads the new Y and the new SUM. -/
def encRound (k : Key) (r : RoundRegs) : RoundRegs :=
  let y := r.y + mixG k r.z r.sum (yIndex r.sum)
  let sum := r.sum + delta
  let z := r.z + mixG k y sum (zIndex sum)
  ⟨y, z, sum⟩

/-- DecRound (R116, R236): the y-update reads the new Z and the new SUM. -/
def decRound (k : Key) (r : RoundRegs) : RoundRegs :=
  let z := r.z - mixG k r.y r.sum (zIndex r.sum)
  let sum := r.sum - delta
  let y := r.y - mixG k z sum (yIndex sum)
  ⟨y, z, sum⟩

/-- `n` encipher rounds. -/
def encRounds (k : Key) : Nat → RoundRegs → RoundRegs
  | 0, r => r
  | n + 1, r => encRounds k n (encRound k r)

/-- `n` decipher rounds. -/
def decRounds (k : Key) : Nat → RoundRegs → RoundRegs
  | 0, r => r
  | n + 1, r => decRounds k n (decRound k r)

/-- encipher(Y, Z) (R112): 32 rounds from SUM = 0 (R114). -/
def encipher (k : Key) (b : Block) : Block :=
  let r := encRounds k rounds ⟨b.v0, b.v1, 0⟩
  ⟨r.y, r.z⟩

/-- decipher(Y, Z) (R115): 32 rounds from SUM = LIMIT (R117). -/
def decipher (k : Key) (b : Block) : Block :=
  let r := decRounds k rounds ⟨b.v0, b.v1, limit⟩
  ⟨r.y, r.z⟩

/-- Word-wise XOR of two blocks (R107, R144, R145). -/
def xorBlock (a b : Block) : Block := ⟨a.v0 ^^^ b.v0, a.v1 ^^^ b.v1⟩

end Sys2Proof.Machine
end

