-- ==== Sys2Proof/Machine/Operands.lean ====
section
/-! DEFINITION. The word codec and every operand form: key, block and IV words from request bytes (40_word_codec.md R100
to R108, 30_encoding.md R77), byte slices (R11), padding (43_block_pipeline.md R161 to R163). -/

namespace Sys2Proof.Machine

/-- `W(s) = (s[0] << 24) | (s[1] << 16) | (s[2] << 8) | s[3]` (R100). -/
def word4 (b0 b1 b2 b3 : Byte) : Word :=
  (b0.setWidth 32 <<< 24) ||| (b1.setWidth 32 <<< 16) ||| (b2.setWidth 32 <<< 8) ||| b3.setWidth 32

/-- `W(s)` (R100); none where `len(s) ≠ 4`, which no caller passes (R108). -/
def wordOfBytes : List Byte → Option Word
  | [b0, b1, b2, b3] => some (word4 b0 b1 b2 b3)
  | _ => none

/-- `B(w)` (R101). -/
def bytesOfWord (w : Word) : List Byte :=
  [w.extractLsb' 24 8, w.extractLsb' 16 8, w.extractLsb' 8 8, w.extractLsb' 0 8]

/-- `s[a .. a+n)` (R11). -/
def slice (s : List Byte) (a n : Nat) : List Byte := (s.drop a).take n

/-- Key load (R103): `K[i] <- W(KEY[4i .. 4i+4))`; none where the key is not 16 bytes. -/
def keyOfBytes (b : List Byte) : Option Key :=
  if b.length = 16 then
    match wordOfBytes (slice b 0 4), wordOfBytes (slice b 4 4), wordOfBytes (slice b 8 4), wordOfBytes (slice b 12 4) with
    | some k0, some k1, some k2, some k3 => some ⟨k0, k1, k2, k3⟩
    | _, _, _, _ => none
  else none

/-- Block load (R104), and the IV words of a supplied IV (R106); none where the sequence is not 8 bytes. -/
def blockOfBytes (b : List Byte) : Option Block :=
  if b.length = 8 then
    match wordOfBytes (slice b 0 4), wordOfBytes (slice b 4 4) with
    | some v0, some v1 => some ⟨v0, v1⟩
    | _, _ => none
  else none

/-- Block store (R105): `B(Y) ++ B(Z)`. -/
def bytesOfBlock (b : Block) : List Byte := bytesOfWord b.v0 ++ bytesOfWord b.v1

/-- IV load (R106, R146): Q.IV when IV_PRESENT, else two zero words. -/
def ivOf (ivp : Bool) (q : Request) : Option Block := if ivp then blockOfBytes q.iv else some ⟨0, 0⟩

/-- `PADLEN = 8 − (n mod 8)` (R161). -/
def padLenOf (n : Nat) : Nat := 8 - n % 8

/-- `rep(PADLEN, PADLEN)` (R162). -/
def padBytes (p : Nat) : List Byte := List.replicate p (BitVec.ofNat 8 p)

/-- NB (R163); `pad` says OP = 3 and SKIP = 0. -/
def blockCount (pad : Bool) (n : Nat) : Nat := if pad then n / 8 + 1 else n / 8

/-- `MemRead(addr, n)` (R51); none outside `0 ≤ n ≤ 8`, `addr + n ≤ DATA_LEN`. -/
def memRead (q : Request) (addr n : Nat) : Option (List Byte) :=
  if n ≤ 8 ∧ addr + n ≤ q.dataLen.toNat then some (slice q.data addr n) else none

/-- `Block(BI)` (R164). The else branch is "only for OP 3, SKIP 0", which `pad` says; without padding a block that is
not whole is a read outside IN_BUF. -/
def formBlock (pad : Bool) (q : Request) (padlen bi : Nat) : Option (List Byte) :=
  if 8 * bi + 8 ≤ q.dataLen.toNat ∨ pad = false then memRead q (8 * bi) 8
  else (memRead q (8 * bi) (q.dataLen.toNat % 8)).map (· ++ padBytes padlen)

end Sys2Proof.Machine
end

