-- ==== Sys2Proof/Config.lean ====
section
/-! DEFINITION. What an instance of the block fixes: the OPEN parameter MAX_MSG_BYTES (00_scope.md R7, D14). -/

namespace Sys2Proof

/-- The parameters of an instance. They stand in State as data that no step writes, so that a statement about every
state holds for every value of them (log 4). -/
structure Config where
  /-- MAX_MSG_BYTES: the longest message, in bytes (R7). -/
  maxMsgBytes : Nat
deriving DecidableEq, Repr

/-- DESIGN CHOICE (log 4), unsafe: the value `State.reset` carries for the OPEN parameter; 1024 is what
95_test_vectors.md takes "wherever it matters". No statement rests on it. -/
def Config.named : Config := { maxMsgBytes := 1024 }

end Sys2Proof
end

