-- ==== Sys2Proof/Machine/State.lean ====
section
/-! DEFINITION. The machine's state as plain data (10_state.md R20 to R41), and the reasons a step can stop. -/

namespace Sys2Proof.Machine

/-- OUT_BUF (R29, R50): the bytes that have been written, as address and byte, addresses strictly rising. An address
that is not listed has no value (R41; log 3). -/
abbrev Memory := List Host.Cell

/-- The canonical form: addresses strictly rise. No entry can equal what an unlisted address reads as, which is no
value. -/
abbrev Memory.wf (m : Memory) : Prop := m.Pairwise (fun a b => a.1 < b.1)

/-- Everything the spec gives the machine (R32), the parameter (R7) and the host agent (log 5). -/
structure State where
  /-- PHASE (R27) -/
  phase : Phase
  /-- REQ (R35) -/
  req : Option Request
  /-- RSP (R35, R37) -/
  rsp : Option Response
  /-- Q, the latched request (R30); `q.data` is IN_BUF (R51) -/
  q : Request
  /-- Y (R23) -/
  y : Word
  /-- Z (R23) -/
  z : Word
  /-- SUM (R24) -/
  sum : Word
  /-- K[0..3] (R25) -/
  k : Key
  /-- IVW[0..1] (R26) -/
  ivw : Block
  /-- TMP[0..1] (R26) -/
  tmp : Block
  /-- BI (R28) -/
  bi : BitVec 32
  /-- NB (R28) -/
  nb : BitVec 32
  /-- PADLEN (R28) -/
  padlen : BitVec 4
  /-- OUT_BUF (R29) -/
  outBuf : Memory
  /-- OLEN (R29) -/
  olen : BitVec 32
  /-- RCODE (R31) -/
  rcode : BitVec 4
  /-- RINFO (R31) -/
  rinfo : Word
  /-- MAX_MSG_BYTES (R7); no step writes it (log 4) -/
  config : Config
  /-- the model's own: the host's moves still to be made (log 5) -/
  host : List HostMove
  /-- the model's own: the responses the host has taken, oldest first (log 5) -/
  taken : List Response
deriving DecidableEq, Repr

/-- Why a step cannot be taken. No command faults: an error of a command is a response (R200, R205). -/
inductive Fault where
  /-- Raised by the engine's step: PHASE = IDLE, REQ is empty and the host makes no move, so no step is enabled (R36).
  Safe (log 6). -/
  | waitingForRequest
  /-- Raised by the engine's step: the response stands on RSP and the host does not take it, so no step is enabled
  (R37, I16). Safe (log 6). -/
  | waitingForTake
  /-- Raised by the host's take: IDLE with REQ and RSP empty, no response will ever come (I17). Safe (log 6). -/
  | waitingForResponse
  /-- Raised by MemRead outside `Q.DATA[0 .. DATA_LEN)` or of more than 8 bytes (R51). No run reaches it (R55). Safe
  (log 10). -/
  | inBufRange
  /-- Raised by MemWrite outside OUT_BUF, or of other than 8 bytes (R52). No run reaches it (R55). Safe (log 10). -/
  | outBufRange
  /-- Raised by a read of a byte of OUT_BUF that nothing has written (R41). No run reaches it (R32). Safe (log 3). -/
  | outBufUnwritten
  /-- Raised by the word codec on a sequence that is not of the length R103, R104 or R106 gives. No run reaches it
  (R108). Safe (log 10). -/
  | codecLength
  /-- Raised by a command's meaning in a phase that is none of its steps (R27, R122, R176 to R180). No run reaches it.
  Safe (log 9). -/
  | phaseNotOfCommand
  /-- Raised by the engine's step after VALIDATE when Q.CMD decodes to no command: VALIDATE raised the error (R206,
  R207), so no run reaches it. Safe (log 9). -/
  | phaseWithoutCommand
deriving DecidableEq, Repr

/-- Why a step has no meaning. -/
inductive Refusal where
  /-- Raised by exec's arm of an instruction that has no meaning yet; no arm of this model does. Safe. -/
  | notModelled (mnemonic : String)
  /-- Raised by the host's submit of a request that is not well formed: it "has no meaning: the model refuses it at the
  port and never submits it" (R35, I15). Safe (log 7). -/
  | malformedRequest
deriving DecidableEq, Repr

/-- One step's outcome. -/
abbrev Out := Host.Outcome State Fault Refusal

/-- DESIGN CHOICE (log 1), unsafe: what Q holds before a request is latched; the spec gives it no value (R41). -/
def Request.unlatched : Request :=
  { cmd := 0, keyLen := 0, key := [], ivLen := 0, iv := [], dataLen := 0, data := [] }

/-- R41: PHASE = IDLE, REQ and RSP empty, no byte of OUT_BUF has a value. Every other register is unspecified at reset;
the model names zero for each (DESIGN CHOICE, log 1, unsafe) and for the parameter the value of log 4. -/
def State.reset : State :=
  { phase := .idle
    req := none
    rsp := none
    q := Request.unlatched
    y := 0
    z := 0
    sum := 0
    k := ⟨0, 0, 0, 0⟩
    ivw := ⟨0, 0⟩
    tmp := ⟨0, 0⟩
    bi := 0
    nb := 0
    padlen := 0
    outBuf := []
    olen := 0
    rcode := 0
    rinfo := 0
    config := Config.named
    host := []
    taken := [] }

end Sys2Proof.Machine
end

