-- ==== Sys2Proof/WellFormed.lean ====
section
/-! DEFINITION. The checks on what enters and leaves the engine. A command has none (every `Instr` is well formed): the
well-formedness the spec asks for is that of a request at the port (10_state.md R35) and of the parameter (R7). -/

namespace Sys2Proof

/-- R7: a positive integer, at most 2^32 − 9. -/
def Config.wf (c : Config) : Bool := decide (0 < c.maxMsgBytes ∧ c.maxMsgBytes ≤ 2 ^ 32 - 9)

namespace Machine

/-- R35: every byte field has exactly the length its length field gives. -/
def Request.wf (r : Request) : Bool :=
  decide (r.key.length = r.keyLen.toNat ∧ r.iv.length = r.ivLen.toNat ∧ r.data.length = r.dataLen.toNat)

/-- R80, R81 and D17: OUT has OUT_LEN bytes, STATUS is one of the codes 0 .. 8, and an error carries no output. -/
def Response.wf (r : Response) : Bool :=
  decide (r.out.length = r.outLen.toNat ∧ r.status.toNat ≤ 8 ∧ (r.status ≠ 0 → r.out = []))

end Machine

end Sys2Proof
end

