-- ==== Sys2Proof/Machine/Ops.lean ====
section
/-! DEFINITION. The shared operations: the output buffer (20_memory.md R50 to R52), the ports and the host's moves
(10_state.md R35 to R37, 70_reset_and_hazards.md R230), entering an error (60_exceptions.md R205) and the steps that
every command shares (R203, 41_round_engine.md R123, 43_block_pipeline.md R180). -/

namespace Sys2Proof.Machine

/-- `phase <- P` (R14). -/
def State.toPhase (s : State) (p : Phase) : State := { s with phase := p }

/-- RSP holds a response and PHASE is RESPOND (R37). -/
def State.responding (s : State) (r : Response) : State := { s with phase := .respond, rsp := some r }

/-- RCODE and RINFO of a success (R180). -/
def State.succeeded (s : State) : State := { s with rcode := 0, rinfo := 0 }

/-- RCODE, RINFO and OLEN of an error (R205). -/
def State.failed (s : State) (e : Error) : State := { s with rcode := e.kind.code, rinfo := e.info, olen := 0 }

/-- A request is latched and VALIDATE is next (R36). -/
def State.accepted (s : State) (r : Request) : State := { s with q := r, req := none, phase := .validate }

/-- REQ holds a request (R35). -/
def State.submitted (s : State) (r : Request) : State := { s with req := some r }

/-- The host has taken a response (R37). -/
def State.tookResponse (s : State) (r : Response) : State :=
  { s with taken := s.taken ++ [r], rsp := none, phase := .idle }

/-- What is left of the host's moves (log 5). -/
def State.setHost (s : State) (l : List HostMove) : State := { s with host := l }

/-- Y, Z and SUM after a round (R113, R116). -/
def State.setRound (s : State) (r : RoundRegs) : State := { s with y := r.y, z := r.z, sum := r.sum }

/-- LOAD of a block command (R122). -/
def State.loadedBlock (s : State) (k : Key) (b : Block) (start : Word) : State :=
  { s with k := k, y := b.v0, z := b.v1, sum := start, bi := 0, nb := 1, olen := 0, phase := .round }

/-- LOAD of a message command (R176). -/
def State.loadedMessage (s : State) (k : Key) (iv : Block) (padlen : BitVec 4) (nb : BitVec 32) (p : Phase) : State :=
  { s with k := k, ivw := iv, padlen := padlen, nb := nb, bi := 0, olen := 0, phase := p }

/-- FETCH of a message command (R177). -/
def State.fetched (s : State) (b tmp : Block) (start : Word) : State :=
  { s with y := b.v0, z := b.v1, tmp := tmp, sum := start, phase := .round }

/-- The controller's last part in STORE (R178). -/
def State.chained (s : State) (b iv : Block) : State := { s with y := b.v0, z := b.v1, ivw := iv }

/-- The block store (R122, R166, R178). -/
def State.stored (s : State) (m : Memory) (olen bi : BitVec 32) (p : Phase) : State :=
  { s with outBuf := m, olen := olen, bi := bi, phase := p }

/-- UNPAD's truncation (R167). -/
def State.truncated (s : State) (olen : BitVec 32) : State := { s with olen := olen, phase := .finish }

/-- Read one byte of OUT_BUF; none where nothing has written it (log 3). -/
def Memory.read : Memory → Nat → Option Byte
  | [], _ => none
  | c :: m, a => if a = c.1 then some c.2 else Memory.read m a

/-- Write one byte of OUT_BUF, keeping the canonical form. -/
def Memory.write : Memory → Nat → Byte → Memory
  | [], a, v => [(a, v)]
  | c :: m, a, v =>
    if a < c.1 then (a, v) :: c :: m
    else if a = c.1 then (a, v) :: m
    else c :: Memory.write m a v

/-- `OUT_BUF[a .. a + n)`; none where a byte of it has not been written. -/
def Memory.readBytes (m : Memory) : Nat → Nat → Option (List Byte)
  | _, 0 => some []
  | a, n + 1 =>
    match Memory.read m a, Memory.readBytes m (a + 1) n with
    | some b, some bs => some (b :: bs)
    | _, _ => none

/-- `OUT_BUF[a + i] <- v[i]` for every i. -/
def Memory.writeBytes : Memory → Nat → List Byte → Memory
  | m, _, [] => m
  | m, a, b :: bs => Memory.writeBytes (Memory.write m a b) (a + 1) bs

/-- `MemWrite(addr, n, v)` (R52); none unless n = 8 and `addr + 8 ≤ MAX_MSG_BYTES + 8`. -/
def memWrite (cap : Nat) (m : Memory) (addr : Nat) (v : List Byte) : Option Memory :=
  if v.length = 8 ∧ addr + 8 ≤ cap + 8 then some (Memory.writeBytes m addr v) else none

/-- A step whose next state needs a value that may be missing. -/
def orFault {α : Type} (x : Option α) (f : Fault) (k : α → Out) : Out :=
  match x with
  | some a => k a
  | none => .fault f

/-- Enter RESPOND (R37): place `{zext_32(RCODE), RINFO, OLEN, OUT_BUF[0 .. OLEN)}` on RSP. -/
def enterRespond (s : State) : Out :=
  orFault (Memory.readBytes s.outBuf 0 s.olen.toNat) .outBufUnwritten fun out =>
    .next (s.responding { status := s.rcode.setWidth 32, errInfo := s.rinfo, outLen := s.olen, out := out })

/-- Error entry, `raise E(info)` (R205): RCODE, RINFO and OLEN = 0, then RESPOND. There is no return from it beyond the
host's take (R216). -/
def raise (e : Error) (s : State) : Out :=
  enterRespond (s.failed e)

/-- The host's take (R37): "It removes the response, and then `phase <- IDLE`." The only way out of an error (R216). -/
def takeResponse (r : Response) (s : State) : State :=
  s.tookResponse r

/-- R35: the host's submit is enabled. -/
def submitEnabled (s : State) : Bool := decide (s.phase = .idle ∧ s.req = none ∧ s.rsp = none)

/-- The host's submit (R35), where it is enabled: a request that is not well formed is refused at the port. -/
def submitRequest (r : Request) (s : State) : Out :=
  if r.wf then .next (s.submitted r) else .refused .malformedRequest

/-- The reset event (R230, R231): PHASE, REQ and RSP as R41 says; no other register has a value (log 1). The parameter,
the host's moves and the responses already taken are not the engine's. -/
def resetEvent (s : State) : State :=
  { State.reset with config := s.config, host := s.host, taken := s.taken }

/-- The accept step (R36). -/
def accept (r : Request) (s : State) : State :=
  s.accepted r

/-- The VALIDATE step (R203): raise the error found, else `phase <- LOAD`. -/
def validateStep (e : Option Error) (s : State) : Out :=
  match e with
  | some e => raise e s
  | none => .next (s.toPhase .load)

/-- The ROUND step of OP 1 and 3 (R123). -/
def encRoundStep (s : State) : Out :=
  let r := encRound s.k ⟨s.y, s.z, s.sum⟩
  if r.sum = limit then .next ((s.setRound r).toPhase .store) else .next (s.setRound r)

/-- The ROUND step of OP 2 and 4 (R123). -/
def decRoundStep (s : State) : Out :=
  let r := decRound s.k ⟨s.y, s.z, s.sum⟩
  if r.sum = 0 then .next ((s.setRound r).toPhase .store) else .next (s.setRound r)

/-- The FINISH step (R180). -/
def finishStep (s : State) : Out := enterRespond s.succeeded

end Sys2Proof.Machine
end

