-- ==== Sys2Proof/Machine/Block.lean ====
section
/-! DEFINITION. The block commands ENCIPHER and DECIPHER (41_round_engine.md R120 to R123). -/

namespace Sys2Proof.Machine

/-- LOAD of OP 1 and 2 (R122): K, Y and Z, SUM at `start`, `BI <- 0`, `NB <- 1`, `OLEN <- 0`. -/
def blockLoad (start : Word) (s : State) : Out :=
  orFault (keyOfBytes s.q.key) .codecLength fun k =>
  orFault (memRead s.q 0 8) .inBufRange fun bytes =>
  orFault (blockOfBytes bytes) .codecLength fun b =>
    .next (s.loadedBlock k b start)

/-- STORE of OP 1 and 2 (R122): `MemWrite(0, 8, B(Y) ++ B(Z))`, `OLEN <- 8`, `BI <- 1`. -/
def blockStore (s : State) : Out :=
  orFault (memWrite s.config.maxMsgBytes s.outBuf 0 (bytesOfBlock ⟨s.y, s.z⟩)) .outBufRange fun m =>
    .next (s.stored m 8 1 .finish)

/-- ENCIPHER (R120): its engine step in each of its phases (R122, R123, R180). -/
def execEncipher (s : State) : Out :=
  match s.phase with
  | .validate => validateStep (operandError s.config.maxMsgBytes s.q .encipher) s
  | .load => blockLoad 0 s
  | .round => encRoundStep s
  | .store => blockStore s
  | .finish => finishStep s
  | .idle => .fault .phaseNotOfCommand
  | .fetch => .fault .phaseNotOfCommand
  | .unpad => .fault .phaseNotOfCommand
  | .respond => .fault .phaseNotOfCommand

/-- DECIPHER (R121): its engine step in each of its phases (R122, R123, R180). -/
def execDecipher (s : State) : Out :=
  match s.phase with
  | .validate => validateStep (operandError s.config.maxMsgBytes s.q .decipher) s
  | .load => blockLoad limit s
  | .round => decRoundStep s
  | .store => blockStore s
  | .finish => finishStep s
  | .idle => .fault .phaseNotOfCommand
  | .fetch => .fault .phaseNotOfCommand
  | .unpad => .fault .phaseNotOfCommand
  | .respond => .fault .phaseNotOfCommand

end Sys2Proof.Machine
end

