-- ==== Sys2Proof/Machine/Controllers.lean ====
section
/-! DEFINITION. The ECB and CBC mode controllers (42_mode_controllers.md R140 to R149): the part of each that stands in
FETCH after the block load, and the part that stands in STORE before the block store (R149). -/

namespace Sys2Proof.Machine

/-- FETCH of ECB encrypt: the block goes to the round engine as it is (R141, R177). -/
def ecbEncFetch (b : Block) (s : State) : State := s.fetched b s.tmp 0

/-- FETCH of CBC encrypt: `Y ^= IVW[0]; Z ^= IVW[1]` before enciphering (R144, R177, R238). -/
def cbcEncFetch (b : Block) (s : State) : State := s.fetched (xorBlock b s.ivw) s.tmp 0

/-- FETCH of ECB decrypt (R142, R177). -/
def ecbDecFetch (b : Block) (s : State) : State := s.fetched b s.tmp limit

/-- FETCH of CBC decrypt: `TMP <- (Y, Z)` before any round (R145, R177, R237). -/
def cbcDecFetch (b : Block) (s : State) : State := s.fetched b b limit

/-- STORE of ECB, either direction: nothing (R149). -/
def ecbStore (s : State) : State := s

/-- STORE of CBC encrypt: `IVW <- (Y, Z)` (R144, R178). -/
def cbcEncStore (s : State) : State := s.chained ⟨s.y, s.z⟩ ⟨s.y, s.z⟩

/-- STORE of CBC decrypt: the XOR with the old IVW, then `IVW <- TMP` (R145, R178, R237). -/
def cbcDecStore (s : State) : State := s.chained (xorBlock ⟨s.y, s.z⟩ s.ivw) s.tmp

end Sys2Proof.Machine
end

