-- ==== Sys2Proof/Machine/Pipeline.lean ====
section
/-! DEFINITION. The steps the message commands share (43_block_pipeline.md R163 to R167, R176 to R179). -/

namespace Sys2Proof.Machine

/-- LOAD once K and IVW are known (R176): PADLEN for an encrypt with padding only (R161), NB (R163), `BI <- 0`,
`OLEN <- 0`; then FETCH while there is a block, else `done`. -/
def loadMessage (pad : Bool) (done : Phase) (k : Key) (iv : Block) (s : State) : State :=
  let n := s.q.dataLen.toNat
  s.loadedMessage k iv (if pad then BitVec.ofNat 4 (padLenOf n) else s.padlen) (BitVec.ofNat 32 (blockCount pad n))
    (if blockCount pad n > 0 then .fetch else done)

/-- LOAD under ECB (R176): IVW is not written. -/
def ecbLoad (pad : Bool) (done : Phase) (s : State) : Out :=
  orFault (keyOfBytes s.q.key) .codecLength fun k =>
    .next (loadMessage pad done k s.ivw s)

/-- LOAD under CBC (R176): IVW from Q.IV or zero (R146). -/
def cbcLoad (ivp pad : Bool) (done : Phase) (s : State) : Out :=
  orFault (keyOfBytes s.q.key) .codecLength fun k =>
  orFault (ivOf ivp s.q) .codecLength fun iv =>
    .next (loadMessage pad done k iv s)

/-- FETCH (R177): form the block, load it, and give it to the controller's first part. -/
def fetchStep (pad : Bool) (controller : Block → State → State) (s : State) : Out :=
  orFault (formBlock pad s.q s.padlen.toNat s.bi.toNat) .inBufRange fun bytes =>
  orFault (blockOfBytes bytes) .codecLength fun b =>
    .next (controller b s)

/-- The rest of STORE after the controller's last part (R178, R166): write the block at `8·BI`, `OLEN <- OLEN + 8`,
`BI <- BI + 1`, then FETCH while a block is left, else `done`. -/
def storeOutput (done : Phase) (s : State) : Out :=
  orFault (memWrite s.config.maxMsgBytes s.outBuf (8 * s.bi.toNat) (bytesOfBlock ⟨s.y, s.z⟩)) .outBufRange fun m =>
    .next (s.stored m (s.olen + 8) (s.bi + 1) (if (s.bi + 1).toNat < s.nb.toNat then .fetch else done))

/-- STORE (R178): the controller's last part, then the block store. -/
def messageStore (controller : State → State) (done : Phase) (s : State) : Out :=
  storeOutput done (controller s)

/-- UNPAD (R167, R179): only the last output byte is read (R168). -/
def unpadStep (s : State) : Out :=
  if s.olen = 0 then raise ⟨.badPadding, noByteInfo⟩ s
  else
    orFault (Memory.read s.outBuf (s.olen.toNat - 1)) .outBufUnwritten fun p =>
      match padError p s.olen.toNat with
      | some e => raise e s
      | none => .next (s.truncated (s.olen - p.setWidth 32))

/-- Where a decrypt goes after its last block (R176, R178). -/
def afterDecrypt (skip : Bool) : Phase := if skip then .finish else .unpad

end Sys2Proof.Machine
end

