-- ==== Sys2Proof/Machine/Decrypt.lean ====
section
/-! DEFINITION. DECRYPT.ECB and DECRYPT.CBC (43_block_pipeline.md R173 to R175). -/

namespace Sys2Proof.Machine

/-- UNPAD of a decrypt: a phase of SKIP_PADDING = 0 only (R27, R179). -/
def decryptUnpad (skip : Bool) (s : State) : Out :=
  if skip then .fault .phaseNotOfCommand else unpadStep s

/-- DECRYPT.ECB (R174): its engine step in each of its phases (R176 to R179, R123, R180). -/
def execDecryptEcb (skip : Bool) (s : State) : Out :=
  match s.phase with
  | .validate => validateStep (operandError s.config.maxMsgBytes s.q (.decryptEcb skip)) s
  | .load => ecbLoad false (afterDecrypt skip) s
  | .fetch => fetchStep false ecbDecFetch s
  | .round => decRoundStep s
  | .store => messageStore ecbStore (afterDecrypt skip) s
  | .unpad => decryptUnpad skip s
  | .finish => finishStep s
  | .idle => .fault .phaseNotOfCommand
  | .respond => .fault .phaseNotOfCommand

/-- DECRYPT.CBC (R175): its engine step in each of its phases (R176 to R179, R123, R180). -/
def execDecryptCbc (skip ivp : Bool) (s : State) : Out :=
  match s.phase with
  | .validate => validateStep (operandError s.config.maxMsgBytes s.q (.decryptCbc skip ivp)) s
  | .load => cbcLoad ivp false (afterDecrypt skip) s
  | .fetch => fetchStep false cbcDecFetch s
  | .round => decRoundStep s
  | .store => messageStore cbcDecStore (afterDecrypt skip) s
  | .unpad => decryptUnpad skip s
  | .finish => finishStep s
  | .idle => .fault .phaseNotOfCommand
  | .respond => .fault .phaseNotOfCommand

end Sys2Proof.Machine
end

