-- ==== Sys2Proof/Machine/Encrypt.lean ====
section
/-! DEFINITION. ENCRYPT.ECB and ENCRYPT.CBC (43_block_pipeline.md R170 to R172). -/

namespace Sys2Proof.Machine

/-- ENCRYPT.ECB (R171): its engine step in each of its phases (R176 to R178, R123, R180). -/
def execEncryptEcb (skip : Bool) (s : State) : Out :=
  match s.phase with
  | .validate => validateStep (operandError s.config.maxMsgBytes s.q (.encryptEcb skip)) s
  | .load => ecbLoad (!skip) .finish s
  | .fetch => fetchStep (!skip) ecbEncFetch s
  | .round => encRoundStep s
  | .store => messageStore ecbStore .finish s
  | .finish => finishStep s
  | .idle => .fault .phaseNotOfCommand
  | .unpad => .fault .phaseNotOfCommand
  | .respond => .fault .phaseNotOfCommand

/-- ENCRYPT.CBC (R172): its engine step in each of its phases (R176 to R178, R123, R180). -/
def execEncryptCbc (skip ivp : Bool) (s : State) : Out :=
  match s.phase with
  | .validate => validateStep (operandError s.config.maxMsgBytes s.q (.encryptCbc skip ivp)) s
  | .load => cbcLoad ivp (!skip) .finish s
  | .fetch => fetchStep (!skip) cbcEncFetch s
  | .round => encRoundStep s
  | .store => messageStore cbcEncStore .finish s
  | .finish => finishStep s
  | .idle => .fault .phaseNotOfCommand
  | .unpad => .fault .phaseNotOfCommand
  | .respond => .fault .phaseNotOfCommand

end Sys2Proof.Machine
end

