-- ==== Sys2Proof/Machine/Dispatch.lean ====
section
/-! DEFINITION. exec: one direct call of a meaning for each command. `exec i s` is the engine step of command i in the
phase s is in (41_round_engine.md R122, R123, 43_block_pipeline.md R176 to R180; log 15). -/

namespace Sys2Proof.Machine

def exec (i : Instr) (s : State) : Host.Outcome State Fault Refusal :=
  match i with
  | .encipher => Sys2Proof.Machine.execEncipher s
  | .decipher => Sys2Proof.Machine.execDecipher s
  | .encryptEcb skip => Sys2Proof.Machine.execEncryptEcb skip s
  | .encryptCbc skip ivp => Sys2Proof.Machine.execEncryptCbc skip ivp s
  | .decryptEcb skip => Sys2Proof.Machine.execDecryptEcb skip s
  | .decryptCbc skip ivp => Sys2Proof.Machine.execDecryptCbc skip ivp s

end Sys2Proof.Machine
end

