-- ==== Sys2Proof/Machine/Sequencer.lean ====
section
/-! DEFINITION. The sequencer: the engine's step (10_state.md R36, R39) and the step of engine and host together (R35,
R37, 70_reset_and_hazards.md R230). -/

namespace Sys2Proof.Machine

/-- What the decoder's verdict on Q.CMD leads to once a request is latched (R79, R203): a command runs; a word that is
no command raises its error in VALIDATE (R206, R207). -/
def runLatched (s : State) : Out :=
  match decode s.q.cmd with
  | .instr i => exec i s
  | .illegal c =>
    if s.phase = .validate then raise ⟨.illegalCommand, c⟩ s else .fault .phaseWithoutCommand
  | .unsupported mode =>
    if s.phase = .validate then raise ⟨.unsupportedMode, mode.setWidth 32⟩ s else .fault .phaseWithoutCommand

/-- One engine step. "exactly one is enabled in each phase other than IDLE and RESPOND" (R39); IDLE has one when REQ
holds a request (R36), RESPOND has none (R37). -/
def engineStep (s : State) : Out :=
  match s.phase with
  | .idle =>
    match s.req with
    | some r => .next (accept r s)
    | none => .fault .waitingForRequest
  | .respond => .fault .waitingForTake
  | .validate => runLatched s
  | .load => runLatched s
  | .fetch => runLatched s
  | .round => runLatched s
  | .store => runLatched s
  | .unpad => runLatched s
  | .finish => runLatched s

/-- One step of engine and host (log 5). Submit and take wait for their enabling condition (R35, R37), and no engine
step is enabled where one of them is, so the order is fixed by the host's list; a reset happens where it stands and wins
(R231). -/
def systemStep (s : State) : Out :=
  match s.host with
  | [] => engineStep s
  | .submit r :: rest =>
    if submitEnabled s then submitRequest r (s.setHost rest) else engineStep s
  | .take :: rest =>
    match s.rsp with
    | some r => .next (takeResponse r (s.setHost rest))
    | none => if s.phase = .idle ∧ s.req = none then .fault .waitingForResponse else engineStep s
  | .engine :: rest => engineStep (s.setHost rest)
  | .reset :: rest => .next (resetEvent (s.setHost rest))

/-- The request withFetchWord latches: the command word, and operands every command accepts, a key, an IV and a block of
zero bytes (log 8). -/
def fetchRequest (cmd : Word) : Request :=
  { cmd := cmd, keyLen := 16, key := List.replicate 16 0, ivLen := 8, iv := List.replicate 8 0,
    dataLen := 8, data := List.replicate 8 0 }

/-- The state in which the very next step is the first step of the command: the request latched, PHASE = VALIDATE, the
ports as they are then, and no host move in front (log 8). -/
def placeCommand (cmd : Word) (s : State) : State :=
  { s with q := fetchRequest cmd, req := none, rsp := none, host := [], phase := .validate }

end Sys2Proof.Machine
end

