-- ==== Sys2Proof/Machine/Step.lean ====
section
/-! DEFINITION. The machine's step, and the placing of a command where step runs it next. -/

namespace Sys2Proof.Machine

/-- One step of the machine: the engine's, or the host's move that is due (Machine/Sequencer.lean). -/
def step (s : State) : Host.Outcome State Fault Refusal := systemStep s

/-- `s` with the command word `w` (in spec/opcode_table.json's numbering, `nbits` bits) latched and in VALIDATE, so that
the next step runs it (log 8). -/
def State.withFetchWord (s : State) (nbits w : Nat) : State := placeCommand (tableWord nbits w) s

end Sys2Proof.Machine
end

