-- ==== Sys2Proof/Machine/Assembler.lean ====
section
/-! DEFINITION. The assembler's abstract syntax and its encoding to requests (30_encoding.md R84 to R87). -/

namespace Sys2Proof.Machine

/-- A byte operand: hex, two digits per byte, or quoted text (R84). -/
inductive AsmBytes where
  | hex (digits : List Char)
  | text (chars : List Char)
deriving DecidableEq, Repr

/-- `.ECB` or `.CBC`. -/
inductive AsmMode where
  | ecb | cbc
deriving DecidableEq, Repr

/-- A mnemonic with its suffixes (R84); a message mnemonic without a mode is the pseudo-form of R85. `.SKIP` after a
missing mode can be written: DESIGN CHOICE (log 14), unsafe. R84's grammar puts a mode before `.SKIP` and R85's
pseudo-forms have none. -/
inductive AsmMnemonic where
  | encipher
  | decipher
  | encrypt (mode : Option AsmMode) (skip : Bool)
  | decrypt (mode : Option AsmMode) (skip : Bool)
deriving DecidableEq, Repr

/-- A command as it is written (R84). -/
structure AsmCommand where
  mnemonic : AsmMnemonic
  key : AsmBytes
  iv : Option AsmBytes
  data : AsmBytes
deriving DecidableEq, Repr

/-- The value of a hex digit, in either case (log 14). -/
def hexDigit (c : Char) : Option Nat :=
  let n := c.toNat
  if 48 ≤ n ∧ n ≤ 57 then some (n - 48)
  else if 65 ≤ n ∧ n ≤ 70 then some (n - 55)
  else if 97 ≤ n ∧ n ≤ 102 then some (n - 87)
  else none

/-- "two digits per byte, in order" (R84). -/
def hexBytes : List Char → Option (List Byte)
  | [] => some []
  | [_] => none
  | h :: l :: rest =>
    match hexDigit h, hexDigit l, hexBytes rest with
    | some a, some b, some bs => some (BitVec.ofNat 8 (16 * a + b) :: bs)
    | _, _, _ => none

/-- "the ASCII bytes of the text" (R84); a character outside ASCII has none (log 14). -/
def textBytes : List Char → Option (List Byte)
  | [] => some []
  | c :: rest =>
    match textBytes rest with
    | some bs => if c.toNat < 128 then some (BitVec.ofNat 8 c.toNat :: bs) else none
    | none => none

/-- The bytes of an operand. -/
def asmBytes : AsmBytes → Option (List Byte)
  | .hex ds => hexBytes ds
  | .text cs => textBytes cs

/-- MODE of a written mode; a missing one is ECB (R85). -/
def asmModeField : Option AsmMode → BitVec 4
  | none => 0
  | some .ecb => 0
  | some .cbc => 1

/-- The command word (R84): IV_PRESENT = 1 if and only if an `iv=` operand is written, which only `.CBC` accepts.
DESIGN CHOICE (log 14), unsafe: `.SKIP` after a missing mode is accepted, and is `.ECB.SKIP`; neither R84, R85 nor D25
says whether it may be written. -/
def asmWord (m : AsmMnemonic) (ivWritten : Bool) : Option Word :=
  match m with
  | .encipher => if ivWritten then none else some (cmdWord 1 0 false false)
  | .decipher => if ivWritten then none else some (cmdWord 2 0 false false)
  | .encrypt mode skip =>
    if ivWritten ∧ asmModeField mode ≠ 1 then none else some (cmdWord 3 (asmModeField mode) skip ivWritten)
  | .decrypt mode skip =>
    if ivWritten ∧ asmModeField mode ≠ 1 then none else some (cmdWord 4 (asmModeField mode) skip ivWritten)

/-- A length field for a byte sequence; none where 32 bits do not hold it (D32). -/
def lengthField (b : List Byte) : Option (BitVec 32) :=
  if b.length < 2 ^ 32 then some (BitVec.ofNat 32 b.length) else none

/-- The bytes of the `iv=` operand; IV_LEN = 0 when it is absent (R84). -/
def asmIv : Option AsmBytes → Option (List Byte)
  | none => some []
  | some b => asmBytes b

/-- The request of a written command (R84, R85); none where the grammar refuses it. -/
def assemble (a : AsmCommand) : Option Request :=
  match asmWord a.mnemonic a.iv.isSome, asmBytes a.key, asmIv a.iv, asmBytes a.data with
  | some cmd, some key, some iv, some data =>
    match lengthField key, lengthField iv, lengthField data with
    | some keyLen, some ivLen, some dataLen =>
      some { cmd := cmd, keyLen := keyLen, key := key, ivLen := ivLen, iv := iv, dataLen := dataLen, data := data }
    | _, _, _ => none
  | _, _, _, _ => none

end Sys2Proof.Machine
end

