-- ==== Sys2Proof/Machine/Transact.lean ====
section
/-! DEFINITION. The transaction function `Transact(Q)` (10_state.md R38, normative) and the commands it calls
(41_round_engine.md R120, R121, 43_block_pipeline.md R170, R173), on byte sequences, with no State; and the step counts
of 70_reset_and_hazards.md R244. That the engine's steps reach exactly this response is R39. -/

namespace Sys2Proof.Machine

/-- The message in 8-byte steps, each read as two words (R104, R164); fewer than 8 bytes make no block. -/
def blocksOf : List Byte → List Block
  | a :: b :: c :: d :: e :: f :: g :: h :: rest => ⟨word4 a b c d, word4 e f g h⟩ :: blocksOf rest
  | _ => []

/-- Block outputs in input order (R105, R166). -/
def bytesOfBlocks (bs : List Block) : List Byte := bs.flatMap bytesOfBlock

/-- `Pad(m) = m ++ rep(PADLEN, PADLEN)` (R162). -/
def padMessage (m : List Byte) : List Byte := m ++ padBytes (padLenOf m.length)

/-- ECB encrypt of every block (R141, R171). -/
def ecbEncrypt (k : Key) (bs : List Block) : List Block := bs.map (encipher k)

/-- ECB decrypt of every block (R142, R174). -/
def ecbDecrypt (k : Key) (bs : List Block) : List Block := bs.map (decipher k)

/-- CBC encrypt (R144, R147): `Cᵢ = E(Pᵢ ^ Cᵢ₋₁)`. -/
def cbcEncrypt (k : Key) : Block → List Block → List Block
  | _, [] => []
  | iv, p :: ps => encipher k (xorBlock p iv) :: cbcEncrypt k (encipher k (xorBlock p iv)) ps

/-- CBC decrypt (R145, R147): `Pᵢ = D(Cᵢ) ^ Cᵢ₋₁`. -/
def cbcDecrypt (k : Key) : Block → List Block → List Block
  | _, [] => []
  | iv, c :: cs => xorBlock (decipher k c) iv :: cbcDecrypt k c cs

/-- The bytes an encrypt enciphers (R162, R170). -/
def encryptInput (skip : Bool) (m : List Byte) : List Byte := if skip then m else padMessage m

/-- `Unpad()` (R167) on the deciphered bytes. -/
def unpad (out : List Byte) : Except Error (List Byte) :=
  match out.getLast? with
  | none => .error ⟨.badPadding, noByteInfo⟩
  | some p =>
    match padError p out.length with
    | some e => .error e
    | none => .ok (out.take (out.length - p.toNat))

/-- The end of a decrypt (R173): the bytes as they are with SKIP_PADDING, else unpadded. -/
def decryptOutput (skip : Bool) (out : List Byte) : Except Error (List Byte) :=
  if skip then .ok out else unpad out

/-- EncipherBlockCmd (R120), DecipherBlockCmd (R121), EncryptCmd (R170), DecryptCmd (R173) under a key; none where the
payload is not of the length the checks of R203 ask for. -/
def commandOutput (k : Key) (q : Request) : Instr → Option (Except Error (List Byte))
  | .encipher => (blockOfBytes q.data).map fun b => .ok (bytesOfBlock (encipher k b))
  | .decipher => (blockOfBytes q.data).map fun b => .ok (bytesOfBlock (decipher k b))
  | .encryptEcb skip => some (.ok (bytesOfBlocks (ecbEncrypt k (blocksOf (encryptInput skip q.data)))))
  | .encryptCbc skip ivp =>
    (ivOf ivp q).map fun iv => .ok (bytesOfBlocks (cbcEncrypt k iv (blocksOf (encryptInput skip q.data))))
  | .decryptEcb skip => some (decryptOutput skip (bytesOfBlocks (ecbDecrypt k (blocksOf q.data))))
  | .decryptCbc skip ivp =>
    (ivOf ivp q).map fun iv => decryptOutput skip (bytesOfBlocks (cbcDecrypt k iv (blocksOf q.data)))

/-- The response of an error (R38, R205). -/
def errorResponse (e : Error) : Response :=
  { status := e.kind.code.setWidth 32, errInfo := e.info, outLen := 0, out := [] }

/-- The response of a success (R38, R180). -/
def okResponse (out : List Byte) : Response :=
  { status := 0, errInfo := 0, outLen := BitVec.ofNat 32 out.length, out := out }

/-- The response to a command's result (R38). -/
def responseOf : Except Error (List Byte) → Response
  | .error e => errorResponse e
  | .ok out => okResponse out

/-- What a validated request computes: none where the word is no command or a payload is not of its length, which no
well-formed request that passes R203 has. -/
def commandResult (q : Request) : Option (Except Error (List Byte)) :=
  match decode q.cmd with
  | .instr i =>
    match keyOfBytes q.key with
    | some k => commandOutput k q i
    | none => none
  | .illegal _ => none
  | .unsupported _ => none

/-- `Transact(Q)` (R38), with MAX_MSG_BYTES as its argument. It is total on the requests that can be latched, which are
well formed (R35); on others it may have no answer. -/
def transact (cap : Nat) (q : Request) : Option Response :=
  match validate cap q with
  | some e => some (errorResponse e)
  | none => (commandResult q).map responseOf

/-- NB of a command on n data bytes (R163; 1 for the block commands, R122). -/
def blocksFor (n : Nat) : Instr → Nat
  | .encipher => 1
  | .decipher => 1
  | .encryptEcb skip => blockCount (!skip) n
  | .encryptCbc skip _ => blockCount (!skip) n
  | .decryptEcb _ => blockCount false n
  | .decryptCbc _ _ => blockCount false n

/-- The engine steps of a command that passes VALIDATE (R244), from the accept step to the step that enters RESPOND. -/
def successSteps (n : Nat) (failed : Bool) : Instr → Nat
  | .encipher => 37
  | .decipher => 37
  | .encryptEcb skip => 4 + 34 * blockCount (!skip) n
  | .encryptCbc skip _ => 4 + 34 * blockCount (!skip) n
  | .decryptEcb skip => (if skip || failed then 4 else 5) + 34 * blockCount false n
  | .decryptCbc skip _ => (if skip || failed then 4 else 5) + 34 * blockCount false n

/-- The step count of a transaction (R244): 2 for an error in VALIDATE, else by the command. -/
def stepCount (cap : Nat) (q : Request) : Nat :=
  match validate cap q with
  | some _ => 2
  | none =>
    match decode q.cmd with
    | .instr i =>
      match commandResult q with
      | some (.error _) => successSteps q.dataLen.toNat true i
      | some (.ok _) => successSteps q.dataLen.toNat false i
      | none => 0
    | .illegal _ => 2
    | .unsupported _ => 2

end Sys2Proof.Machine
end

