-- ==== Sys2Proof/Safety.lean ====
section
/-! DEFINITION. What claims use: the phases of each command, the invariant of the machine, and repeated steps. -/

namespace Sys2Proof.Machine

/-- A transaction is in progress: every phase but IDLE and RESPOND (R39). -/
def Phase.active : Phase → Bool
  | .idle => false
  | .validate => true
  | .load => true
  | .fetch => true
  | .round => true
  | .store => true
  | .unpad => true
  | .finish => true
  | .respond => false

/-- OP 3 or 4. -/
def isMessage : Instr → Bool
  | .encipher => false
  | .decipher => false
  | .encryptEcb _ => true
  | .encryptCbc _ _ => true
  | .decryptEcb _ => true
  | .decryptCbc _ _ => true

/-- OP 1 or 3: the rounds are encipher rounds (R123). -/
def enciphers : Instr → Bool
  | .encipher => true
  | .decipher => false
  | .encryptEcb _ => true
  | .encryptCbc _ _ => true
  | .decryptEcb _ => false
  | .decryptCbc _ _ => false

/-- OP 3 with SKIP_PADDING = 0: padding is added (R161). -/
def pads : Instr → Bool
  | .encipher => false
  | .decipher => false
  | .encryptEcb skip => !skip
  | .encryptCbc skip _ => !skip
  | .decryptEcb _ => false
  | .decryptCbc _ _ => false

/-- OP 4 with SKIP_PADDING = 0: padding is stripped (R27, R179). -/
def unpads : Instr → Bool
  | .encipher => false
  | .decipher => false
  | .encryptEcb _ => false
  | .encryptCbc _ _ => false
  | .decryptEcb skip => !skip
  | .decryptCbc skip _ => !skip

/-- MODE = CBC: the chaining registers are used (R26). -/
def chains : Instr → Bool
  | .encipher => false
  | .decipher => false
  | .encryptEcb _ => false
  | .encryptCbc _ _ => true
  | .decryptEcb _ => false
  | .decryptCbc _ _ => true

/-- MODE = CBC with IV_PRESENT = 1: the request's IV is read (R74, R78). -/
def readsIv : Instr → Bool
  | .encipher => false
  | .decipher => false
  | .encryptEcb _ => false
  | .encryptCbc _ ivp => ivp
  | .decryptEcb _ => false
  | .decryptCbc _ ivp => ivp

/-- The message length must be a multiple of 8 (R57). -/
def needsAligned : Instr → Bool
  | .encipher => false
  | .decipher => false
  | .encryptEcb skip => skip
  | .encryptCbc skip _ => skip
  | .decryptEcb _ => true
  | .decryptCbc _ _ => true

/-- What error entry leaves (R205): RCODE, RINFO, OLEN = 0, and the empty response with the code on RSP. -/
def errorState (e : Error) (s : State) : State :=
  { s with
    rcode := e.kind.code, rinfo := e.info, olen := 0, phase := .respond,
    rsp := some { status := e.kind.code.setWidth 32, errInfo := e.info, outLen := 0, out := [] } }

/-- The phases a command's steps have (R27, R122, R176 to R180). -/
def hasPhase (i : Instr) : Phase → Bool
  | .idle => false
  | .validate => true
  | .load => true
  | .fetch => isMessage i
  | .round => true
  | .store => true
  | .unpad => unpads i
  | .finish => true
  | .respond => false

/-- SUM before a round that leaves `n` rounds of the block to do (R114, R117). -/
def sumWithRoundsLeft (enc : Bool) (n : Nat) : Word :=
  if enc then BitVec.ofNat 32 (32 - n) * delta else BitVec.ofNat 32 n * delta

/-- The bytes `OUT_BUF[0 .. n)` have all been written. -/
def outputWritten (s : State) (n : Nat) : Prop := ∀ a < n, (Memory.read s.outBuf a).isSome

/-- The block loop stands at a block that is not stored yet: K holds the request's key, PADLEN its pad length, NB the
block count, OLEN the bytes stored (R103, R161, R163, R166). -/
structure LoopInv (i : Instr) (s : State) : Prop where
  key : keyOfBytes s.q.key = some s.k
  pad : pads i = true → s.padlen.toNat = padLenOf s.q.dataLen.toNat
  count : s.nb.toNat = blocksFor s.q.dataLen.toNat i
  inside : s.bi.toNat < s.nb.toNat
  length : s.olen.toNat = 8 * s.bi.toNat
  written : outputWritten s s.olen.toNat

/-- What holds of a command past VALIDATE, by phase. -/
def phaseInv (i : Instr) (s : State) : Prop :=
  match s.phase with
  | .idle => False
  | .validate => False
  | .load => True
  | .fetch => LoopInv i s
  | .round => LoopInv i s ∧ ∃ n, 0 < n ∧ n ≤ 32 ∧ s.sum = sumWithRoundsLeft (enciphers i) n
  | .store => LoopInv i s ∧ s.sum = sumWithRoundsLeft (enciphers i) 0
  | .unpad => s.olen.toNat = 8 * blocksFor s.q.dataLen.toNat i ∧ outputWritten s s.olen.toNat
  | .finish => s.olen.toNat ≤ 8 * blocksFor s.q.dataLen.toNat i ∧ outputWritten s s.olen.toNat
  | .respond => False

/-- Q.CMD is a command that passed the checks of R203 and stands in a phase of its own. -/
structure CommandInv (i : Instr) (s : State) : Prop where
  decoded : decode s.q.cmd = .instr i
  accepted : operandError s.config.maxMsgBytes s.q i = none
  phase : hasPhase i s.phase = true
  state : phaseInv i s

/-- The invariant of the machine. -/
structure Inv (s : State) : Prop where
  /-- R7 -/
  config : s.config.wf = true
  /-- OUT_BUF is in canonical form, and inside its capacity (R29, R50). -/
  memory : Memory.wf s.outBuf
  capacity : ∀ c ∈ s.outBuf, c.1 < s.config.maxMsgBytes + 8
  /-- A request waits only in IDLE, and is well formed (R35). -/
  request : ∀ r, s.req = some r → s.phase = .idle ∧ r.wf = true
  /-- RSP holds a response exactly in RESPOND (R37). -/
  response : s.rsp.isSome = true ↔ s.phase = .respond
  /-- Every response is well formed (R80, R81). -/
  responseWf : ∀ r, s.rsp = some r → r.wf = true
  takenWf : ∀ r ∈ s.taken, r.wf = true
  /-- The latched request is well formed (R35, R36). -/
  latched : s.phase ≠ .idle → s.q.wf = true
  /-- Past VALIDATE a command is in progress. -/
  command : s.phase.active = true → s.phase ≠ .validate → ∃ i, CommandInv i s

/-- `n` engine steps of the command `i`, one `exec` each. -/
def execSteps (i : Instr) : Nat → State → Out
  | 0, s => .next s
  | n + 1, s =>
    match exec i s with
    | .next t => execSteps i n t
    | .fault f => .fault f
    | .refused r => .refused r

/-- `n` steps of the machine. -/
def steps : Nat → State → Out
  | 0, s => .next s
  | n + 1, s =>
    match step s with
    | .next t => steps n t
    | .fault f => .fault f
    | .refused r => .refused r

end Sys2Proof.Machine
end

