-- ==== Sys2Proof/Certificates/Slice0/Obligations.lean ====
section
/-! DEFINITION. The statements for the provers, each `def Obligations.<Name> : Prop`. -/

open Sys2Proof Sys2Proof.Machine

/-! ### Encoding -/

/-- R79 against R78, R82 and R84: decoding an encoded command gives it back, and a word decodes to a command exactly
when the bits the command reads are those the encoder writes. -/
def Obligations.DecodeInvertsEncode : Prop :=
  (∀ i : Instr, decode (encode i) = .instr i) ∧
  ∀ (w : Word) (i : Instr), decode w = .instr i ↔ w &&& readMask i = encode i

/-- R82: the rows are disjoint, every word selects at most one, and the decoder gives the command of the row selected. -/
def Obligations.OpcodeRowsAreDisjoint : Prop :=
  (∀ (w : Word) (r r' : OpcodeRow), r ∈ opcodeMap → r' ∈ opcodeMap → r.selects w = true → r'.selects w = true → r = r') ∧
  ∀ (w : Word) (r : OpcodeRow), r ∈ opcodeMap →
    (r.selects w = true ↔ ∃ i, decode w = .instr i ∧ rowOf i = r)

/-- R83: a word that selects no row is illegal or of an unsupported mode, by its bits, and raises that error with that
ERR_INFO; every word has exactly one outcome. -/
def Obligations.EveryWordHasOneOutcome : Prop :=
  ∀ (cap : Nat) (q : Request),
    ((∀ r ∈ opcodeMap, r.selects q.cmd = false) ↔ ∀ i, decode q.cmd ≠ .instr i) ∧
    ((cmdRsvd q.cmd ≠ 0 ∨ cmdOp q.cmd = 0 ∨ 5 ≤ (cmdOp q.cmd).toNat) →
      decode q.cmd = .illegal q.cmd ∧ validate cap q = some ⟨.illegalCommand, q.cmd⟩) ∧
    ((cmdRsvd q.cmd = 0 ∧ (cmdOp q.cmd = 3 ∨ cmdOp q.cmd = 4) ∧ 2 ≤ (cmdMode q.cmd).toNat) →
      decode q.cmd = .unsupported (cmdMode q.cmd) ∧
      validate cap q = some ⟨.unsupportedMode, (cmdMode q.cmd).setWidth 32⟩) ∧
    ((∀ i, decode q.cmd ≠ .instr i) →
      (cmdRsvd q.cmd ≠ 0 ∨ cmdOp q.cmd = 0 ∨ 5 ≤ (cmdOp q.cmd).toNat) ∨
      (cmdRsvd q.cmd = 0 ∧ (cmdOp q.cmd = 3 ∨ cmdOp q.cmd = 4) ∧ 2 ≤ (cmdMode q.cmd).toNat))

/-- R87: the words of the encoding examples, decoded. -/
def Obligations.ExampleWordsDecode : Prop :=
  decode 0x00000001 = .instr .encipher ∧
  decode 0x00000002 = .instr .decipher ∧
  decode 0x00000003 = .instr (.encryptEcb false) ∧
  decode 0x00000103 = .instr (.encryptEcb true) ∧
  decode 0x00000213 = .instr (.encryptCbc false true) ∧
  decode 0x00000313 = .instr (.encryptCbc true true) ∧
  decode 0x00000004 = .instr (.decryptEcb false) ∧
  decode 0x00000214 = .instr (.decryptCbc false true) ∧
  decode 0x00000114 = .instr (.decryptCbc true false) ∧
  decode 0x00000005 = .illegal 0x00000005 ∧
  decode 0x00000023 = .unsupported 2

/-- R84, R85: what an assembled command is, bullet by bullet: OP, MODE and SKIP_PADDING from the mnemonic and its
suffixes (a missing mode is ECB), reserved bits 0, IV_PRESENT from a written `iv=`, the bytes and lengths of the
operands; that `iv=` is rejected without `.CBC`; that every other command with readable operands assembles; and which
bytes an operand is. The abstract syntax, the ASCII codes and `.SKIP` after a missing mode are the model's (log 14). -/
def Obligations.AssemblerFollowsTheSyntax : Prop :=
  (∀ (a : AsmCommand) (r : Request), assemble a = some r →
    r.wf = true ∧
    (∃ i, r.cmd = encode i ∧ decode r.cmd = .instr i) ∧
    cmdRsvd r.cmd = 0 ∧
    (match a.mnemonic with
      | .encipher => cmdOp r.cmd = 1 ∧ cmdMode r.cmd = 0 ∧ cmdSkip r.cmd = false
      | .decipher => cmdOp r.cmd = 2 ∧ cmdMode r.cmd = 0 ∧ cmdSkip r.cmd = false
      | .encrypt mode skip =>
        cmdOp r.cmd = 3 ∧ cmdMode r.cmd = (if mode = some .cbc then 1 else 0) ∧ cmdSkip r.cmd = skip
      | .decrypt mode skip =>
        cmdOp r.cmd = 4 ∧ cmdMode r.cmd = (if mode = some .cbc then 1 else 0) ∧ cmdSkip r.cmd = skip) ∧
    cmdIvp r.cmd = a.iv.isSome ∧
    asmBytes a.key = some r.key ∧ asmIv a.iv = some r.iv ∧ asmBytes a.data = some r.data ∧
    (a.iv = none → r.ivLen = 0 ∧ r.iv = []) ∧
    (∀ skip, a.mnemonic = .encrypt none skip → r.cmd = encode (.encryptEcb skip)) ∧
    (∀ skip, a.mnemonic = .decrypt none skip → r.cmd = encode (.decryptEcb skip))) ∧
  (∀ a : AsmCommand, a.iv.isSome = true →
    (∀ skip, a.mnemonic ≠ .encrypt (some .cbc) skip ∧ a.mnemonic ≠ .decrypt (some .cbc) skip) →
    assemble a = none) ∧
  (∀ (a : AsmCommand) (key iv data : List Byte),
    asmBytes a.key = some key → asmIv a.iv = some iv → asmBytes a.data = some data →
    key.length < 2 ^ 32 → iv.length < 2 ^ 32 → data.length < 2 ^ 32 →
    (a.iv.isSome = true →
      ∃ skip, a.mnemonic = .encrypt (some .cbc) skip ∨ a.mnemonic = .decrypt (some .cbc) skip) →
    ∃ r, assemble a = some r) ∧
  (∀ b : List Byte,
    asmBytes (.hex (b.flatMap fun x => [Nat.digitChar (x.toNat / 16), Nat.digitChar (x.toNat % 16)])) = some b) ∧
  ∀ cs : List Char, (∀ c ∈ cs, c.toNat < 128) →
    asmBytes (.text cs) = some (cs.map fun c => BitVec.ofNat 8 c.toNat)

/-! ### Codec and operands -/

/-- R102: W and B are mutual inverses, and a block loaded and stored unchanged gives back its bytes. -/
def Obligations.CodecIsInvertible : Prop :=
  (∀ w : Word, wordOfBytes (bytesOfWord w) = some w) ∧
  (∀ s : List Byte, s.length = 4 → ∃ w, wordOfBytes s = some w ∧ bytesOfWord w = s) ∧
  (∀ s : List Byte, s.length = 8 → ∃ b, blockOfBytes s = some b ∧ bytesOfBlock b = s)

/-- R100, R103, R104, R106: where each byte of a word, a key, a block and an IV goes. -/
def Obligations.OperandWordsAreBigEndian : Prop :=
  (∀ a b c d : Byte, ∃ w, wordOfBytes [a, b, c, d] = some w ∧
    w.extractLsb' 24 8 = a ∧ w.extractLsb' 16 8 = b ∧ w.extractLsb' 8 8 = c ∧ w.extractLsb' 0 8 = d) ∧
  (∀ a b c d e f g h i j k l m n o p : Byte,
    keyOfBytes [a, b, c, d, e, f, g, h, i, j, k, l, m, n, o, p] =
      some ⟨word4 a b c d, word4 e f g h, word4 i j k l, word4 m n o p⟩) ∧
  (∀ a b c d e f g h : Byte, blockOfBytes [a, b, c, d, e, f, g, h] = some ⟨word4 a b c d, word4 e f g h⟩) ∧
  (∀ q : Request, ivOf false q = some ⟨0, 0⟩ ∧ ivOf true q = blockOfBytes q.iv)

/-- R107: the word-wise XOR of two blocks is their byte-wise XOR. -/
def Obligations.WordXorIsByteXor : Prop :=
  ∀ a b : List Byte, a.length = 8 → b.length = 8 →
    ∃ x y, blockOfBytes a = some x ∧ blockOfBytes b = some y ∧
      bytesOfBlock (xorBlock x y) = List.zipWith (· ^^^ ·) a b

/-- R162, R161: the padded message's length, its multiple of 8, and its last byte. -/
def Obligations.PaddedMessageEndsInItsPadLength : Prop :=
  ∀ m : List Byte,
    1 ≤ padLenOf m.length ∧ padLenOf m.length ≤ 8 ∧
    padMessage m = m ++ List.replicate (padLenOf m.length) (BitVec.ofNat 8 (padLenOf m.length)) ∧
    (padMessage m).length = m.length + padLenOf m.length ∧
    (padMessage m).length = 8 * (m.length / 8 + 1) ∧
    (padMessage m).getLast? = some (BitVec.ofNat 8 (padLenOf m.length))

/-- R164, R162: block BI of a padded encrypt is bytes 8·BI .. 8·BI + 8 of the padded message, and without padding of the
message; each is 8 bytes. -/
def Obligations.FormedBlocksAreThoseOfTheMessage : Prop :=
  ∀ (q : Request) (bi : Nat), q.wf = true →
    (bi ≤ q.dataLen.toNat / 8 →
      formBlock true q (padLenOf q.dataLen.toNat) bi = some (slice (padMessage q.data) (8 * bi) 8) ∧
      (slice (padMessage q.data) (8 * bi) 8).length = 8) ∧
    (8 * bi + 8 ≤ q.dataLen.toNat → ∀ pad p,
      formBlock pad q p bi = some (slice q.data (8 * bi) 8) ∧ (slice q.data (8 * bi) 8).length = 8)

/-! ### The round engine -/

/-- R114, R117: SUM after n encipher rounds is n·DELTA and reaches LIMIT first at 32; after n decipher rounds it is
(32 − n)·DELTA and reaches 0 first at 32. -/
def Obligations.SumCountsTheRounds : Prop :=
  ∀ (k : Key) (y z : Word) (n : Nat), n ≤ 32 →
    (encRounds k n ⟨y, z, 0⟩).sum = BitVec.ofNat 32 n * delta ∧
    ((encRounds k n ⟨y, z, 0⟩).sum = limit ↔ n = 32) ∧
    (decRounds k n ⟨y, z, limit⟩).sum = BitVec.ofNat 32 (32 - n) * delta ∧
    ((decRounds k n ⟨y, z, limit⟩).sum = 0 ↔ n = 32)

/-- R118: a decipher round undoes an encipher round and the other way; encipher and decipher are inverse, so each is a
bijection. -/
def Obligations.EncipherAndDecipherAreInverse : Prop :=
  ∀ k : Key,
    (∀ r, decRound k (encRound k r) = r) ∧
    (∀ r, encRound k (decRound k r) = r) ∧
    (∀ b, decipher k (encipher k b) = b) ∧
    (∀ b, encipher k (decipher k b) = b) ∧
    Function.Bijective (encipher k) ∧ Function.Bijective (decipher k)

/-- R111, R113: the key indices are `SUM mod 4` and `SUM / 2048 mod 4`. -/
def Obligations.KeyIndicesComeFromSum : Prop :=
  ∀ (k : Key) (w : Word),
    (yIndex w).val = w.toNat % 4 ∧ (zIndex w).val = w.toNat / 2048 % 4 ∧
    keyAt k 0 = k.k0 ∧ keyAt k 1 = k.k1 ∧ keyAt k 2 = k.k2 ∧ keyAt k 3 = k.k3

/-- R113 and the phase of R123: the ROUND step of every command that enciphers, and that it writes nothing else. -/
def Obligations.RoundStepEnciphers : Prop :=
  ∀ (s : State) (i : Instr), s.phase = .round → enciphers i = true →
    let y' := s.y + ((((s.z <<< 4) ^^^ (s.z >>> 5)) + s.z) ^^^ (s.sum + keyAt s.k (yIndex s.sum)))
    let sum' := s.sum + 0x9E3779B9
    let z' := s.z + ((((y' <<< 4) ^^^ (y' >>> 5)) + y') ^^^ (sum' + keyAt s.k (zIndex sum')))
    exec i s = .next { s with
      y := y', sum := sum', z := z', phase := if sum' = 0xC6EF3720 then .store else .round }

/-- R116 and the phase of R123: the ROUND step of every command that deciphers, and that it writes nothing else. -/
def Obligations.RoundStepDeciphers : Prop :=
  ∀ (s : State) (i : Instr), s.phase = .round → enciphers i = false →
    let z' := s.z - ((((s.y <<< 4) ^^^ (s.y >>> 5)) + s.y) ^^^ (s.sum + keyAt s.k (zIndex s.sum)))
    let sum' := s.sum - 0x9E3779B9
    let y' := s.y - ((((z' <<< 4) ^^^ (z' >>> 5)) + z') ^^^ (sum' + keyAt s.k (yIndex sum')))
    exec i s = .next { s with
      z := z', sum := sum', y := y', phase := if sum' = 0 then .store else .round }

/-! ### The other steps of the commands: each says the whole next state, so also what is unchanged -/

/-- R203, R205: the VALIDATE step of every command whose operands pass, and of every command whose operands fail; where
Q.CMD is that command, its operand checks are `Validate(Q)`. -/
def Obligations.ValidateStepOfEachCommand : Prop :=
  ∀ (s : State) (i : Instr), s.phase = .validate →
    (operandError s.config.maxMsgBytes s.q i = none → exec i s = .next { s with phase := .load }) ∧
    (∀ e, operandError s.config.maxMsgBytes s.q i = some e → exec i s = .next (errorState e s)) ∧
    (decode s.q.cmd = .instr i →
      operandError s.config.maxMsgBytes s.q i = validate s.config.maxMsgBytes s.q)

/-- R122: LOAD of ENCIPHER and DECIPHER. -/
def Obligations.LoadStepOfBlockCommands : Prop :=
  ∀ s : State, s.phase = .load → s.q.wf = true → s.q.keyLen = 16 → s.q.dataLen = 8 →
    ∃ k b, keyOfBytes s.q.key = some k ∧ blockOfBytes s.q.data = some b ∧
      exec .encipher s = .next { s with
        k := k, y := b.v0, z := b.v1, sum := 0, bi := 0, nb := 1, olen := 0, phase := .round } ∧
      exec .decipher s = .next { s with
        k := k, y := b.v0, z := b.v1, sum := 0xC6EF3720, bi := 0, nb := 1, olen := 0, phase := .round }

/-- R176 with R146, R161 and R163: LOAD of the four message commands. -/
def Obligations.LoadStepOfMessageCommands : Prop :=
  ∀ (s : State) (i : Instr), s.phase = .load → isMessage i = true → s.q.wf = true → s.q.keyLen = 16 →
    (readsIv i = true → s.q.ivLen = 8) →
    let n := s.q.dataLen.toNat
    let nb := if pads i then n / 8 + 1 else n / 8
    ∃ k iv, keyOfBytes s.q.key = some k ∧
      (chains i = true → ivOf (readsIv i) s.q = some iv) ∧ (chains i = false → iv = s.ivw) ∧
      exec i s = .next { s with
        k := k, ivw := iv, padlen := if pads i then BitVec.ofNat 4 (8 - n % 8) else s.padlen,
        nb := BitVec.ofNat 32 nb, bi := 0, olen := 0,
        phase := if 0 < nb then .fetch else if unpads i then .unpad else .finish }

/-- R177 with R164: FETCH of the four message commands. -/
def Obligations.FetchStepOfMessageCommands : Prop :=
  ∀ (s : State) (i : Instr), s.phase = .fetch → isMessage i = true → s.q.wf = true →
    s.bi.toNat < blockCount (pads i) s.q.dataLen.toNat →
    (pads i = true → s.padlen.toNat = padLenOf s.q.dataLen.toNat) →
    (pads i = false → s.q.dataLen.toNat % 8 = 0) →
    ∃ b, blockOfBytes (slice (if pads i then padMessage s.q.data else s.q.data) (8 * s.bi.toNat) 8) = some b ∧
      exec i s = .next { s with
        y := if chains i && enciphers i then b.v0 ^^^ s.ivw.v0 else b.v0,
        z := if chains i && enciphers i then b.v1 ^^^ s.ivw.v1 else b.v1,
        tmp := if chains i && !enciphers i then b else s.tmp,
        sum := if enciphers i then 0 else 0xC6EF3720,
        phase := .round }

/-- R122: STORE of ENCIPHER and DECIPHER; the bytes stored are 0 .. 7 and every other byte reads as before. -/
def Obligations.StoreStepOfBlockCommands : Prop :=
  ∀ (s : State) (i : Instr), s.phase = .store → isMessage i = false →
    ∃ m, exec i s = .next { s with outBuf := m, olen := 8, bi := 1, phase := .finish } ∧
      ∀ a, Memory.read m a = if a < 8 then (bytesOfWord s.y ++ bytesOfWord s.z)[a]? else Memory.read s.outBuf a

/-- R178 with R166: STORE of the four message commands; the bytes stored are 8·BI .. 8·BI + 7 and every other byte reads
as before. -/
def Obligations.StoreStepOfMessageCommands : Prop :=
  ∀ (s : State) (i : Instr), s.phase = .store → isMessage i = true →
    8 * s.bi.toNat + 8 ≤ s.config.maxMsgBytes + 8 →
    let y' := if chains i && !enciphers i then s.y ^^^ s.ivw.v0 else s.y
    let z' := if chains i && !enciphers i then s.z ^^^ s.ivw.v1 else s.z
    ∃ m, exec i s = .next { s with
        y := y', z := z',
        ivw := if chains i then (if enciphers i then ⟨s.y, s.z⟩ else s.tmp) else s.ivw,
        outBuf := m, olen := s.olen + 8, bi := s.bi + 1,
        phase := if (s.bi + 1).toNat < s.nb.toNat then .fetch else if unpads i then .unpad else .finish } ∧
      ∀ a, Memory.read m a =
        if 8 * s.bi.toNat ≤ a ∧ a < 8 * s.bi.toNat + 8 then (bytesOfWord y' ++ bytesOfWord z')[a - 8 * s.bi.toNat]?
        else Memory.read s.outBuf a

/-- R167, R179: UNPAD of both decrypts, on an empty output, on a last byte that is no pad length and on one that is. -/
def Obligations.UnpadStepOfDecrypts : Prop :=
  ∀ (s : State) (i : Instr), s.phase = .unpad → unpads i = true →
    (s.olen = 0 → exec i s = .next (errorState ⟨.badPadding, 0xFFFFFFFF⟩ s)) ∧
    ∀ p : Byte, s.olen ≠ 0 → Memory.read s.outBuf (s.olen.toNat - 1) = some p →
      ((p = 0 ∨ 8 < p.toNat ∨ s.olen.toNat < p.toNat) →
        exec i s = .next (errorState ⟨.badPadding, p.setWidth 32⟩ s)) ∧
      (¬(p = 0 ∨ 8 < p.toNat ∨ s.olen.toNat < p.toNat) →
        exec i s = .next { s with olen := s.olen - p.setWidth 32, phase := .finish })

/-- R168: UNPAD reads no byte of OUT_BUF but the last: with any other bytes before it the step is the same. -/
def Obligations.UnpadReadsOnlyTheLastByte : Prop :=
  ∀ (s t : State) (i : Instr) (m : Memory), s.phase = .unpad → unpads i = true →
    Memory.read m (s.olen.toNat - 1) = Memory.read s.outBuf (s.olen.toNat - 1) →
    exec i s = .next t → exec i { s with outBuf := m } = .next { t with outBuf := m }

/-- R180 with R37: FINISH of every command; the output bytes are those of OUT_BUF[0 .. OLEN). -/
def Obligations.FinishStepOfEachCommand : Prop :=
  ∀ (s : State) (i : Instr), s.phase = .finish → outputWritten s s.olen.toNat →
    ∃ out : List Byte, out.length = s.olen.toNat ∧ (∀ a < s.olen.toNat, out[a]? = Memory.read s.outBuf a) ∧
      exec i s = .next { s with
        rcode := 0, rinfo := 0, phase := .respond,
        rsp := some { status := 0, errInfo := 0, outLen := s.olen, out := out } }

/-! ### The sequencer and the ports -/

/-- R36, R79: a step in a transaction is exec of the command Q.CMD decodes to, whichever move the host waits with; where
the host leaves the step to the engine, that move is used up. -/
def Obligations.StepRunsTheDecodedCommand : Prop :=
  ∀ (s : State) (i : Instr), s.phase.active = true → decode s.q.cmd = .instr i →
    (s.host = [] → step s = exec i s) ∧
    (∀ r rest, s.host = .submit r :: rest → step s = exec i s) ∧
    (∀ rest, s.host = .take :: rest → s.rsp = none → step s = exec i s) ∧
    (∀ rest, s.host = .engine :: rest → step s = exec i { s with host := rest })

/-- The state withFetchWord gives runs that command next: VALIDATE passes wherever 8 bytes fit (the payload is the
model's choice, log 8). -/
def Obligations.PlacedCommandRunsNext : Prop :=
  ∀ (s : State) (i : Instr),
    step (s.withFetchWord 32 (encode i).toNat) = exec i (s.withFetchWord 32 (encode i).toNat) ∧
    (8 ≤ s.config.maxMsgBytes →
      step (s.withFetchWord 32 (encode i).toNat) = .next { s.withFetchWord 32 (encode i).toNat with phase := .load })

/-- R203: the VALIDATE step reports the first check that fails, and Validate reads only the command word and the
lengths. -/
def Obligations.ValidateStepReportsTheFirstError : Prop :=
  (∀ s : State, s.phase = .validate → s.host = [] →
    (∀ e, validate s.config.maxMsgBytes s.q = some e → step s = .next (errorState e s)) ∧
    (validate s.config.maxMsgBytes s.q = none → step s = .next { s with phase := .load })) ∧
  ∀ (cap : Nat) (q : Request) (key iv data : List Byte),
    validate cap { q with key := key, iv := iv, data := data } = validate cap q

/-- R201 to R204, R206 to R212: each error of VALIDATE is reported, with its ERR_INFO, exactly where its own check fails
and every earlier one of R203's order passes; no error means that every check passes. R81, R201: the code of each
kind. -/
def Obligations.ErrorsReportTheirCause : Prop :=
  (∀ (cap : Nat) (q : Request),
    let op := cmdOp q.cmd
    let mode := cmdMode q.cmd
    let n := q.dataLen.toNat
    let illegal := cmdRsvd q.cmd ≠ 0 ∨ op = 0 ∨ 5 ≤ op.toNat
    let badMode := (op = 3 ∨ op = 4) ∧ 2 ≤ mode.toNat
    let badKey := q.keyLen ≠ 16
    let badBlock := (op = 1 ∨ op = 2) ∧ q.dataLen ≠ 8
    let tooLong := (op = 3 ∨ op = 4) ∧ cap < n
    let badIv := (op = 3 ∨ op = 4) ∧ mode = 1 ∧ cmdIvp q.cmd = true ∧ q.ivLen ≠ 8
    let unaligned := ((op = 3 ∧ cmdSkip q.cmd = true) ∨ op = 4) ∧ n % 8 ≠ 0
    (validate cap q = some ⟨.illegalCommand, q.cmd⟩ ↔ illegal) ∧
    (validate cap q = some ⟨.unsupportedMode, mode.setWidth 32⟩ ↔ ¬illegal ∧ badMode) ∧
    (validate cap q = some ⟨.keyLength, q.keyLen⟩ ↔ ¬illegal ∧ ¬badMode ∧ badKey) ∧
    (validate cap q = some ⟨.blockLength, q.dataLen⟩ ↔ ¬illegal ∧ ¬badMode ∧ ¬badKey ∧ badBlock) ∧
    (validate cap q = some ⟨.capacity, q.dataLen⟩ ↔ ¬illegal ∧ ¬badMode ∧ ¬badKey ∧ ¬badBlock ∧ tooLong) ∧
    (validate cap q = some ⟨.ivLength, q.ivLen⟩ ↔
      ¬illegal ∧ ¬badMode ∧ ¬badKey ∧ ¬badBlock ∧ ¬tooLong ∧ badIv) ∧
    (validate cap q = some ⟨.unalignedData, q.dataLen⟩ ↔
      ¬illegal ∧ ¬badMode ∧ ¬badKey ∧ ¬badBlock ∧ ¬tooLong ∧ ¬badIv ∧ unaligned) ∧
    (validate cap q = none ↔
      ¬illegal ∧ ¬badMode ∧ ¬badKey ∧ ¬badBlock ∧ ¬tooLong ∧ ¬badIv ∧ ¬unaligned)) ∧
  (ErrorKind.unsupportedMode.code = 1 ∧ ErrorKind.unalignedData.code = 2 ∧ ErrorKind.keyLength.code = 3 ∧
    ErrorKind.blockLength.code = 4 ∧ ErrorKind.ivLength.code = 5 ∧ ErrorKind.badPadding.code = 6 ∧
    ErrorKind.illegalCommand.code = 7 ∧ ErrorKind.capacity.code = 8)

/-- R36: the accept step. -/
def Obligations.AcceptLatchesTheRequest : Prop :=
  ∀ (s : State) (r : Request), s.phase = .idle → s.req = some r → s.host = [] →
    step s = .next { s with q := r, req := none, phase := .validate }

/-- R35: submit is enabled in IDLE with both ports empty, places a well-formed request, and is refused at the port for
one whose length fields do not agree; where it is not enabled the engine goes on. -/
def Obligations.SubmitPlacesOneWellFormedRequest : Prop :=
  ∀ (s : State) (r : Request) (rest : List HostMove), s.host = .submit r :: rest →
    (s.phase = .idle ∧ s.req = none ∧ s.rsp = none →
      ((r.key.length = r.keyLen.toNat ∧ r.iv.length = r.ivLen.toNat ∧ r.data.length = r.dataLen.toNat) →
        step s = .next { s with req := some r, host := rest }) ∧
      (¬(r.key.length = r.keyLen.toNat ∧ r.iv.length = r.ivLen.toNat ∧ r.data.length = r.dataLen.toNat) →
        step s = .refused .malformedRequest)) ∧
    (¬(s.phase = .idle ∧ s.req = none ∧ s.rsp = none) → step s = engineStep s)

/-- R37: take removes the response and returns the engine to IDLE; nothing else of the engine changes. -/
def Obligations.TakeReturnsToIdle : Prop :=
  ∀ (s : State) (r : Response) (rest : List HostMove), s.host = .take :: rest → s.rsp = some r →
    step s = .next { s with rsp := none, phase := .idle, host := rest, taken := s.taken ++ [r] }

/-- R36, R37: no engine step is enabled in RESPOND, nor in IDLE with REQ empty, and none of these states moves by
itself (the stop's form is the model's, log 6). -/
def Obligations.EngineWaitsForTheHost : Prop :=
  ∀ s : State, s.host = [] →
    (s.phase = .respond → step s = .fault .waitingForTake) ∧
    (s.phase = .idle → s.req = none → step s = .fault .waitingForRequest)

/-- R230, R231: a reset may fall on any state and sets PHASE, REQ and RSP; the parameter, the host's other moves and the
responses already taken are not the engine's. Nothing is said of the registers R230 leaves without value. -/
def Obligations.ResetEventClearsPhaseAndPorts : Prop :=
  ∀ (s : State) (rest : List HostMove), s.host = .reset :: rest →
    ∃ t, step s = .next t ∧ t.phase = .idle ∧ t.req = none ∧ t.rsp = none ∧
      t.config = s.config ∧ t.host = rest ∧ t.taken = s.taken

/-- R41, R233: PHASE, REQ and RSP right after reset. The last three clauses are the model's choice: R41 gives OUT_BUF no
value, which the model holds as a memory with no byte written (log 3), and the host's lists are the model's own
(log 5). -/
def Obligations.ResetStateIsIdleAndEmpty : Prop :=
  State.reset.phase = .idle ∧ State.reset.req = none ∧ State.reset.rsp = none ∧
  (∀ a, Memory.read State.reset.outBuf a = none) ∧ State.reset.host = [] ∧ State.reset.taken = []

/-- R27 with R36, R122, R123, R176 to R180, R203, R205: the phases an engine step leads to, from each phase. -/
def Obligations.PhasesFollowTheStepRules : Prop :=
  ∀ s t : State, engineStep s = .next t →
    match s.phase with
    | .idle => t.phase = .validate
    | .validate => t.phase = .load ∨ t.phase = .respond
    | .load => t.phase = .round ∨ t.phase = .fetch ∨ t.phase = .unpad ∨ t.phase = .finish
    | .fetch => t.phase = .round
    | .round => t.phase = .round ∨ t.phase = .store
    | .store => t.phase = .fetch ∨ t.phase = .unpad ∨ t.phase = .finish
    | .unpad => t.phase = .finish ∨ t.phase = .respond
    | .finish => t.phase = .respond
    | .respond => False

/-! ### Frames and whole-machine rules -/

/-- R25, R26, R28 to R31, R53, R241: what no step of a command writes, and in which phase alone each register is
written; OLEN by LOAD, STORE, UNPAD and an error's entry only. -/
def Obligations.CommandsWriteOnlyTheirRegisters : Prop :=
  ∀ (i : Instr) (s t : State), exec i s = .next t →
    t.q = s.q ∧ t.req = s.req ∧ t.config = s.config ∧ t.host = s.host ∧ t.taken = s.taken ∧
    (s.phase ≠ .load → t.k = s.k ∧ t.nb = s.nb ∧ t.padlen = s.padlen) ∧
    (s.phase ≠ .store → ∀ a, Memory.read t.outBuf a = Memory.read s.outBuf a) ∧
    (s.phase ≠ .load → s.phase ≠ .store → t.bi = s.bi) ∧
    (s.phase = .validate ∨ s.phase = .unpad ∨ s.phase = .finish → t.y = s.y ∧ t.z = s.z) ∧
    (s.phase ≠ .load → s.phase ≠ .fetch → s.phase ≠ .round → t.sum = s.sum) ∧
    (s.phase ≠ .load → s.phase ≠ .store → t.ivw = s.ivw) ∧
    (s.phase ≠ .fetch → t.tmp = s.tmp) ∧
    (pads i = false → t.padlen = s.padlen) ∧
    (s.phase = .fetch ∨ s.phase = .round ∨ s.phase = .finish → t.olen = s.olen) ∧
    (s.phase = .validate → t.phase = .load → t.olen = s.olen) ∧
    (t.phase ≠ .respond → t.rcode = s.rcode ∧ t.rinfo = s.rinfo ∧ t.rsp = s.rsp)

/-- R27: a command has no step in a phase that is not one of its own (the stop's form is the model's, log 9). -/
def Obligations.CommandsStopOutsideTheirPhases : Prop :=
  ∀ (s : State) (i : Instr), hasPhase i s.phase = false → exec i s = .fault .phaseNotOfCommand

/-- R51, R52, R41: where a store would fall outside OUT_BUF, a block outside IN_BUF, or an output byte that is read has
never been written, the step stops (the stop's form is the model's, log 3 and 10). -/
def Obligations.AccessesOutsideTheirBuffersStop : Prop :=
  ∀ (s : State) (i : Instr),
    (s.phase = .store → isMessage i = true → s.config.maxMsgBytes + 8 < 8 * s.bi.toNat + 8 →
      exec i s = .fault .outBufRange) ∧
    (s.phase = .load → isMessage i = false → s.q.key.length = 16 → s.q.dataLen.toNat < 8 →
      exec i s = .fault .inBufRange) ∧
    (s.phase = .fetch → isMessage i = true → pads i = false → s.q.dataLen.toNat < 8 * s.bi.toNat + 8 →
      exec i s = .fault .inBufRange) ∧
    (s.phase = .fetch → pads i = true → s.q.dataLen.toNat / 8 < s.bi.toNat →
      exec i s = .fault .inBufRange) ∧
    (s.phase = .unpad → unpads i = true → s.olen ≠ 0 → Memory.read s.outBuf (s.olen.toNat - 1) = none →
      exec i s = .fault .outBufUnwritten) ∧
    (s.phase = .finish → (∃ a < s.olen.toNat, Memory.read s.outBuf a = none) →
      exec i s = .fault .outBufUnwritten)

/-- R26: under ECB, and for the block commands, neither IVW nor TMP is written or read. -/
def Obligations.ChainingRegistersBelongToCbc : Prop :=
  ∀ (i : Instr) (s t : State), chains i = false → exec i s = .next t →
    t.ivw = s.ivw ∧ t.tmp = s.tmp ∧
    ∀ a b : Block, exec i { s with ivw := a, tmp := b } = .next { t with ivw := a, tmp := b }

/-- The machine's invariant holds at reset (R41), for every MAX_MSG_BYTES that R7 allows; log 4's value is one of
them. -/
def Obligations.InvariantAtReset : Prop :=
  ∀ c : Config, c.wf = true → Inv { State.reset with config := c }

/-- The machine's invariant is kept by every step, of the engine or of the host: the memory stays canonical and in its
capacity, the ports hold what R35 and R37 allow, and a transaction in progress is where R103, R114, R117, R161, R163 and
R166 say. -/
def Obligations.EveryStepKeepsTheInvariant : Prop :=
  ∀ s t : State, Inv s → step s = .next t → Inv t

/-- R39, R55, R108: inside a transaction an engine step is always enabled; no access is out of its buffer and no codec
length is wrong. -/
def Obligations.TransactionsNeverStop : Prop :=
  ∀ s : State, Inv s → s.phase.active = true → ∃ t, engineStep s = .next t

/-! ### Transactions -/

/-- R120 to R122: ENCIPHER and DECIPHER, from VALIDATE to the response, in 36 steps. -/
def Obligations.BlockCommandsComplete : Prop :=
  ∀ s : State, s.phase = .validate → s.q.wf = true → s.q.keyLen = 16 → s.q.dataLen = 8 →
    ∃ k b, keyOfBytes s.q.key = some k ∧ blockOfBytes s.q.data = some b ∧
      (∃ t, execSteps .encipher 36 s = .next t ∧ t.phase = .respond ∧
        t.rsp = some { status := 0, errInfo := 0, outLen := 8, out := bytesOfBlock (encipher k b) }) ∧
      (∃ t, execSteps .decipher 36 s = .next t ∧ t.phase = .respond ∧
        t.rsp = some { status := 0, errInfo := 0, outLen := 8, out := bytesOfBlock (decipher k b) })

/-- R170 to R172: ENCRYPT.ECB and ENCRYPT.CBC, from VALIDATE to the response, in 3 + 34·NB steps. -/
def Obligations.EncryptCommandsComplete : Prop :=
  ∀ (s : State) (skip : Bool), s.phase = .validate → s.config.wf = true → s.q.wf = true → s.q.keyLen = 16 →
    s.q.dataLen.toNat ≤ s.config.maxMsgBytes → (skip = true → s.q.dataLen.toNat % 8 = 0) →
    let nb := blockCount (!skip) s.q.dataLen.toNat
    let input := blocksOf (encryptInput skip s.q.data)
    ∃ k, keyOfBytes s.q.key = some k ∧
      (∃ t, execSteps (.encryptEcb skip) (3 + 34 * nb) s = .next t ∧ t.phase = .respond ∧
        t.rsp = some { status := 0, errInfo := 0, outLen := BitVec.ofNat 32 (8 * nb),
                       out := bytesOfBlocks (ecbEncrypt k input) }) ∧
      ∀ ivp, (ivp = true → s.q.ivLen = 8) →
        ∃ iv, ivOf ivp s.q = some iv ∧
          ∃ t, execSteps (.encryptCbc skip ivp) (3 + 34 * nb) s = .next t ∧ t.phase = .respond ∧
            t.rsp = some { status := 0, errInfo := 0, outLen := BitVec.ofNat 32 (8 * nb),
                           out := bytesOfBlocks (cbcEncrypt k iv input) }

/-- R173 to R175: DECRYPT.ECB and DECRYPT.CBC with SKIP_PADDING = 1, from VALIDATE to the response, in 3 + 34·NB
steps. -/
def Obligations.DecryptCommandsCompleteWithoutUnpadding : Prop :=
  ∀ s : State, s.phase = .validate → s.config.wf = true → s.q.wf = true → s.q.keyLen = 16 →
    s.q.dataLen.toNat ≤ s.config.maxMsgBytes → s.q.dataLen.toNat % 8 = 0 →
    ∃ k, keyOfBytes s.q.key = some k ∧
      (∃ t, execSteps (.decryptEcb true) (3 + 34 * (s.q.dataLen.toNat / 8)) s = .next t ∧ t.phase = .respond ∧
        t.rsp = some { status := 0, errInfo := 0, outLen := s.q.dataLen,
                       out := bytesOfBlocks (ecbDecrypt k (blocksOf s.q.data)) }) ∧
      ∀ ivp, (ivp = true → s.q.ivLen = 8) →
        ∃ iv, ivOf ivp s.q = some iv ∧
          ∃ t, execSteps (.decryptCbc true ivp) (3 + 34 * (s.q.dataLen.toNat / 8)) s = .next t ∧ t.phase = .respond ∧
            t.rsp = some { status := 0, errInfo := 0, outLen := s.q.dataLen,
                           out := bytesOfBlocks (cbcDecrypt k iv (blocksOf s.q.data)) }

/-- R173 to R175, R167, R205: DECRYPT.ECB and DECRYPT.CBC with SKIP_PADDING = 0, from VALIDATE to the response: 4 + 34·NB
steps where the deciphered bytes unpad, 3 + 34·NB where UNPAD raises BAD_PADDING. -/
def Obligations.DecryptCommandsCompleteWithUnpadding : Prop :=
  ∀ s : State, s.phase = .validate → s.config.wf = true → s.q.wf = true → s.q.keyLen = 16 →
    s.q.dataLen.toNat ≤ s.config.maxMsgBytes → s.q.dataLen.toNat % 8 = 0 →
    ∃ k, keyOfBytes s.q.key = some k ∧
      ∀ (i : Instr) (plain : List Byte),
        (i = .decryptEcb false ∧ plain = bytesOfBlocks (ecbDecrypt k (blocksOf s.q.data)) ∨
         ∃ ivp iv, i = .decryptCbc false ivp ∧ (ivp = true → s.q.ivLen = 8) ∧ ivOf ivp s.q = some iv ∧
           plain = bytesOfBlocks (cbcDecrypt k iv (blocksOf s.q.data))) →
        (∀ m, unpad plain = .ok m →
          ∃ t, execSteps i (4 + 34 * (s.q.dataLen.toNat / 8)) s = .next t ∧ t.phase = .respond ∧
            t.rsp = some { status := 0, errInfo := 0, outLen := BitVec.ofNat 32 m.length, out := m }) ∧
        (∀ e, unpad plain = .error e →
          ∃ t, execSteps i (3 + 34 * (s.q.dataLen.toNat / 8)) s = .next t ∧ t.phase = .respond ∧
            t.rsp = some { status := 6, errInfo := e.info, outLen := 0, out := [] })

/-- R39, R244: from the accept of any well-formed request the machine reaches RESPOND in the number of steps of R244's
table, with exactly Transact(Q) on RSP, whatever the working registers and OUT_BUF held. -/
def Obligations.StepsReachTransact : Prop :=
  ∀ (s : State) (r : Request), s.phase = .idle → s.req = some r → s.host = [] → r.wf = true → s.config.wf = true →
    let cap := s.config.maxMsgBytes
    let n := r.dataLen.toNat
    ∃ t resp, steps (stepCount cap r) s = .next t ∧ transact cap r = some resp ∧
      t.phase = .respond ∧ t.req = none ∧ t.rsp = some resp ∧
      t.config = s.config ∧ t.taken = s.taken ∧ t.host = [] ∧
      ((validate cap r).isSome = true → stepCount cap r = 2) ∧
      (validate cap r = none → ∃ i, decode r.cmd = .instr i ∧
        (isMessage i = false → stepCount cap r = 37) ∧
        (pads i = true → stepCount cap r = 4 + 34 * (n / 8 + 1)) ∧
        (isMessage i = true → pads i = false → unpads i = false → stepCount cap r = 4 + 34 * (n / 8)) ∧
        (unpads i = true →
          (resp.status = 0 ∧ stepCount cap r = 5 + 34 * (n / 8)) ∨
          (resp.status = 6 ∧ stepCount cap r = 4 + 34 * (n / 8))))

/-- R32, R38, R62: the response depends on the request and the parameter alone: two engines that differ in every working
register, in OUT_BUF and in Q answer the same request alike, in the same number of steps. -/
def Obligations.ResponseDependsOnlyOnTheRequest : Prop :=
  ∀ (s s' : State) (r : Request), s.phase = .idle → s'.phase = .idle → s.req = some r → s'.req = some r →
    s.host = [] → s'.host = [] → r.wf = true → s.config.wf = true → s'.config = s.config →
    ∃ n t t', steps n s = .next t ∧ steps n s' = .next t' ∧ t.phase = .respond ∧ t'.phase = .respond ∧
      t.rsp.isSome = true ∧ t'.rsp = t.rsp

/-- R78: the fields a command does not read have no effect on the response. -/
def Obligations.UnreadFieldsHaveNoEffect : Prop :=
  ∀ (cap : Nat) (q : Request) (i : Instr) (cmd' : Word) (iv' : List Byte) (ivLen' : BitVec 32),
    decode q.cmd = .instr i → decode cmd' = .instr i →
    transact cap { q with cmd := cmd' } = transact cap q ∧
    (readsIv i = false → transact cap { q with iv := iv', ivLen := ivLen' } = transact cap q)

/-- R200, R202, R80, R81: a response's status is one of 0 .. 8; on an error it carries no output; on success ERR_INFO
is 0. -/
def Obligations.ErrorsCarryNoOutput : Prop :=
  ∀ (cap : Nat) (q : Request) (r : Response), transact cap q = some r →
    r.status.toNat ≤ 8 ∧ (r.status = 0 → r.errInfo = 0) ∧ (r.status ≠ 0 → r.outLen = 0 ∧ r.out = [])

/-- R169: OUT_LEN on success; for a decrypt with unpadding, p is the last byte of the deciphered message. -/
def Obligations.OutputLengthOfEachCommand : Prop :=
  ∀ (cap : Nat) (q : Request) (i : Instr) (r : Response), cap ≤ 2 ^ 32 - 9 → q.wf = true →
    decode q.cmd = .instr i → transact cap q = some r → r.status = 0 →
    r.out.length = r.outLen.toNat ∧
    (isMessage i = false → r.outLen.toNat = 8) ∧
    (pads i = true → r.outLen.toNat = 8 * (q.dataLen.toNat / 8 + 1) ∧
      r.outLen.toNat = q.dataLen.toNat + padLenOf q.dataLen.toNat) ∧
    (isMessage i = true → pads i = false → unpads i = false → r.outLen.toNat = q.dataLen.toNat) ∧
    (unpads i = true → ∃ (k : Key) (plain : List Byte) (p : Byte), keyOfBytes q.key = some k ∧
      (i = .decryptEcb false ∧ plain = bytesOfBlocks (ecbDecrypt k (blocksOf q.data)) ∨
       ∃ ivp iv, i = .decryptCbc false ivp ∧ ivOf ivp q = some iv ∧
         plain = bytesOfBlocks (cbcDecrypt k iv (blocksOf q.data))) ∧
      plain.getLast? = some p ∧ 1 ≤ p.toNat ∧ p.toNat ≤ 8 ∧ r.outLen.toNat + p.toNat = q.dataLen.toNat)

/-- R181: decrypting what was encrypted, under the same key, mode and IV, gives the message back: with padding on both
sides for every message that fits with its pad, with SKIP_PADDING on both sides for every aligned message. -/
def Obligations.DecryptUndoesEncrypt : Prop :=
  ∀ (cap : Nat) (q : Request) (cbc skip ivp : Bool), cap ≤ 2 ^ 32 - 9 → q.wf = true → q.keyLen = 16 →
    (cbc = true → ivp = true → q.ivLen = 8) →
    (skip = true → q.dataLen.toNat % 8 = 0 ∧ q.dataLen.toNat ≤ cap) →
    (skip = false → q.dataLen.toNat + padLenOf q.dataLen.toNat ≤ cap) →
    ∃ c : List Byte,
      transact cap { q with cmd := encode (if cbc then .encryptCbc skip ivp else .encryptEcb skip) } =
        some (okResponse c) ∧
      transact cap { q with
          cmd := encode (if cbc then .decryptCbc skip ivp else .decryptEcb skip)
          dataLen := BitVec.ofNat 32 c.length
          data := c } = some (okResponse q.data)

/-- R143: under ECB, equal input blocks give equal output blocks wherever they stand. -/
def Obligations.EqualBlocksEncryptEqually : Prop :=
  ∀ (cap : Nat) (q : Request) (skip : Bool) (r : Response) (i j : Nat),
    decode q.cmd = .instr (.encryptEcb skip) → transact cap q = some r → r.status = 0 →
    8 * i + 8 ≤ (encryptInput skip q.data).length → 8 * j + 8 ≤ (encryptInput skip q.data).length →
    slice (encryptInput skip q.data) (8 * i) 8 = slice (encryptInput skip q.data) (8 * j) 8 →
    slice r.out (8 * i) 8 = slice r.out (8 * j) 8

/-- R147: CBC in closed form, both directions. -/
def Obligations.CbcChainsThePreviousCiphertext : Prop :=
  ∀ (k : Key) (iv : Block) (bs : List Block),
    (cbcEncrypt k iv bs).length = bs.length ∧ (cbcDecrypt k iv bs).length = bs.length ∧
    ∀ (i : Nat) (b : Block), bs[i]? = some b →
      (∃ prev, (if i = 0 then some iv else (cbcEncrypt k iv bs)[i - 1]?) = some prev ∧
        (cbcEncrypt k iv bs)[i]? = some (encipher k (xorBlock b prev))) ∧
      (∃ prev, (if i = 0 then some iv else bs[i - 1]?) = some prev ∧
        (cbcDecrypt k iv bs)[i]? = some (xorBlock (decipher k b) prev))

/-- R151: under CBC, two equal plaintext blocks give different ciphertext blocks exactly when the blocks chained into them
differ. -/
def Obligations.CbcEqualBlocksDifferByTheirChain : Prop :=
  ∀ (k : Key) (iv : Block) (bs : List Block) (i j : Nat) (p ci cj : Block), bs[i]? = some p → bs[j]? = some p →
    (if i = 0 then some iv else (cbcEncrypt k iv bs)[i - 1]?) = some ci →
    (if j = 0 then some iv else (cbcEncrypt k iv bs)[j - 1]?) = some cj →
    ((cbcEncrypt k iv bs)[i]? ≠ (cbcEncrypt k iv bs)[j]? ↔ ci ≠ cj)

/-- R146, R150: a CBC request with an explicit IV of 8 zero bytes gives the response of the request without an IV, and
under a zero IV the first output block is that of ECB. -/
def Obligations.ZeroIvIsNoIv : Prop :=
  (∀ (cap : Nat) (q : Request) (skip : Bool), q.ivLen = 8 → q.iv = List.replicate 8 0 →
    transact cap { q with cmd := encode (.encryptCbc skip true) } =
      transact cap { q with cmd := encode (.encryptCbc skip false) } ∧
    transact cap { q with cmd := encode (.decryptCbc skip true) } =
      transact cap { q with cmd := encode (.decryptCbc skip false) }) ∧
  ∀ (cap : Nat) (q : Request) (skip : Bool) (r r' : Response),
    transact cap { q with cmd := encode (.encryptCbc skip false) } = some r →
    transact cap { q with cmd := encode (.encryptEcb skip) } = some r' →
    r.status = r'.status ∧ slice r.out 0 8 = slice r'.out 0 8
end

