-- ==== Sys2Proof/Laws/Assembler.lean ====
section
/-! SUPPORT. The command word's fields, and what an assembled request is, said once (30_encoding.md R70, R84). -/

namespace Sys2Proof

@[simp] theorem cmdOp_cmdWord : ∀ (o m : BitVec 4) (s i : Bool), cmdOp (cmdWord o m s i) = o := by decide

@[simp] theorem cmdMode_cmdWord : ∀ (o m : BitVec 4) (s i : Bool), cmdMode (cmdWord o m s i) = m := by decide

@[simp] theorem cmdSkip_cmdWord : ∀ (o m : BitVec 4) (s i : Bool), cmdSkip (cmdWord o m s i) = s := by decide

@[simp] theorem cmdIvp_cmdWord : ∀ (o m : BitVec 4) (s i : Bool), cmdIvp (cmdWord o m s i) = i := by decide

@[simp] theorem cmdRsvd_cmdWord : ∀ (o m : BitVec 4) (s i : Bool), cmdRsvd (cmdWord o m s i) = 0 := by decide

namespace Machine

theorem lengthField_eq_some {b : List Byte} {l : BitVec 32} :
    lengthField b = some l ↔ b.length < 2 ^ 32 ∧ l = BitVec.ofNat 32 b.length := by
  unfold lengthField
  split <;> simp_all [eq_comm]

theorem lengthField_toNat {b : List Byte} {l : BitVec 32} (h : lengthField b = some l) : l.toNat = b.length := by
  obtain ⟨hb, rfl⟩ := lengthField_eq_some.mp h
  rw [BitVec.toNat_ofNat, Nat.mod_eq_of_lt hb]

theorem assemble_eq_some {a : AsmCommand} {r : Request} :
    assemble a = some r ↔
      asmWord a.mnemonic a.iv.isSome = some r.cmd ∧
      asmBytes a.key = some r.key ∧ asmIv a.iv = some r.iv ∧ asmBytes a.data = some r.data ∧
      lengthField r.key = some r.keyLen ∧ lengthField r.iv = some r.ivLen ∧ lengthField r.data = some r.dataLen := by
  constructor
  · intro h
    unfold assemble at h
    split at h <;> [skip; cases h]
    split at h <;> cases h
    exact ⟨‹_›, ‹_›, ‹_›, ‹_›, ‹_›, ‹_›, ‹_›⟩
  · rintro ⟨h1, h2, h3, h4, h5, h6, h7⟩
    simp only [assemble, h1, h2, h3, h4, h5, h6, h7]

end Machine

end Sys2Proof
end

