-- ==== Sys2Proof/Laws/Codec.lean ====
section
/-! SUPPORT. The word codec on the lengths its callers pass (40_word_codec.md R103 to R108). -/

namespace Sys2Proof.Machine

@[simp] theorem bytesOfWord_length (w : Word) : (bytesOfWord w).length = 4 := rfl

@[simp] theorem bytesOfBlock_length (b : Block) : (bytesOfBlock b).length = 8 := rfl

@[simp] theorem padBytes_length (p : Nat) : (padBytes p).length = p := by simp [padBytes]

theorem slice_length {s : List Byte} {a n : Nat} (h : a + n ≤ s.length) : (slice s a n).length = n := by
  simp [slice]; omega

theorem wordOfBytes_eq_some {s : List Byte} (h : s.length = 4) : ∃ w, wordOfBytes s = some w := by
  match s, h with
  | [a, b, c, d], _ => exact ⟨_, rfl⟩

theorem blockOfBytes_eq_some {s : List Byte} (h : s.length = 8) : ∃ b, blockOfBytes s = some b := by
  match s, h with
  | [a, b, c, d, e, f, g, i], _ => exact ⟨_, rfl⟩

theorem blockOfBytes_length {s : List Byte} {b : Block} (h : blockOfBytes s = some b) : s.length = 8 := by
  unfold blockOfBytes at h
  split at h
  · assumption
  · cases h

theorem keyOfBytes_eq_some {s : List Byte} (h : s.length = 16) : ∃ k, keyOfBytes s = some k := by
  obtain ⟨w0, h0⟩ := wordOfBytes_eq_some (slice_length (s := s) (a := 0) (n := 4) (by omega))
  obtain ⟨w1, h1⟩ := wordOfBytes_eq_some (slice_length (s := s) (a := 4) (n := 4) (by omega))
  obtain ⟨w2, h2⟩ := wordOfBytes_eq_some (slice_length (s := s) (a := 8) (n := 4) (by omega))
  obtain ⟨w3, h3⟩ := wordOfBytes_eq_some (slice_length (s := s) (a := 12) (n := 4) (by omega))
  exact ⟨_, by simp [keyOfBytes, h, h0, h1, h2, h3]; rfl⟩

/-- MemRead gives as many bytes as it is asked for, where DATA has DATA_LEN bytes (R51). -/
theorem memRead_length {q : Request} (hq : q.data.length = q.dataLen.toNat) {a n : Nat} {s : List Byte}
    (h : memRead q a n = some s) : s.length = n := by
  unfold memRead at h
  split at h
  · rename_i hb
    cases h
    exact slice_length (by omega)
  · cases h

theorem padLenOf_bounds (n : Nat) : 1 ≤ padLenOf n ∧ padLenOf n ≤ 8 := by
  unfold padLenOf; omega

theorem padLenOf_add (n : Nat) : n % 8 + padLenOf n = 8 := by
  unfold padLenOf; omega

end Sys2Proof.Machine
end

