-- ==== Sys2Proof/Laws/Memory.lean ====
section
/-! SUPPORT. The output buffer: reading after writing, and the canonical form (20_memory.md R51, R52). -/

namespace Sys2Proof.Machine

theorem Memory.read_write (m : Memory) (a x : Nat) (v : Byte) :
    Memory.read (Memory.write m a v) x = if x = a then some v else Memory.read m x := by
  induction m with
  | nil => simp [Memory.write, Memory.read]
  | cons c m ih =>
    unfold Memory.write
    split
    · simp [Memory.read]
    · split
      · subst_vars
        simp only [Memory.read]
        split <;> rfl
      · rename_i h1 h2
        simp only [Memory.read, ih]
        by_cases hx : x = a
        · subst hx; simp [h2]
        · simp [hx]

theorem Memory.mem_write {m : Memory} {a : Nat} {v : Byte} {c : Host.Cell}
    (h : c ∈ Memory.write m a v) : c = (a, v) ∨ c ∈ m := by
  induction m with
  | nil => simpa [Memory.write] using h
  | cons d m ih =>
    unfold Memory.write at h
    split at h
    · simpa using h
    · split at h
      · simp only [List.mem_cons] at h ⊢; tauto
      · simp only [List.mem_cons] at h ⊢
        rcases h with h | h
        · tauto
        · rcases ih h with h | h <;> tauto

/-- Every write keeps the canonical form. -/
theorem Memory.write_wf {m : Memory} (h : Memory.wf m) (a : Nat) (v : Byte) : Memory.wf (Memory.write m a v) := by
  induction m with
  | nil => simp [Memory.write, Memory.wf]
  | cons c m ih =>
    obtain ⟨hc, hm⟩ := List.pairwise_cons.mp h
    unfold Memory.write
    split
    · rename_i hlt
      refine List.pairwise_cons.mpr ⟨fun d hd => ?_, h⟩
      rcases List.mem_cons.mp hd with rfl | hd
      · exact hlt
      · exact lt_trans hlt (hc d hd)
    · split
      · rename_i heq
        exact List.pairwise_cons.mpr ⟨fun d hd => heq ▸ hc d hd, hm⟩
      · refine List.pairwise_cons.mpr ⟨fun d hd => ?_, ih hm⟩
        rcases Memory.mem_write hd with rfl | hd
        · simp only; omega
        · exact hc d hd

theorem Memory.writeBytes_wf {m : Memory} (h : Memory.wf m) (a : Nat) (v : List Byte) :
    Memory.wf (Memory.writeBytes m a v) := by
  induction v generalizing m a with
  | nil => exact h
  | cons b v ih => exact ih (Memory.write_wf h a b) (a + 1)

/-- What a byte reads as after a store of consecutive bytes: the stored byte inside it, as before outside it. -/
theorem Memory.read_writeBytes (m : Memory) (a : Nat) (v : List Byte) (x : Nat) :
    Memory.read (Memory.writeBytes m a v) x =
      if a ≤ x ∧ x < a + v.length then v[x - a]? else Memory.read m x := by
  induction v generalizing m a with
  | nil =>
    have : ¬(a ≤ x ∧ x < a + ([] : List Byte).length) := by simp
    simp only [Memory.writeBytes, this, if_false]
  | cons b v ih =>
    simp only [Memory.writeBytes, ih, Memory.read_write, List.length_cons]
    by_cases hx : x = a
    · subst hx; simp
    · by_cases hin : a + 1 ≤ x ∧ x < a + 1 + v.length
      · have : x - a = (x - (a + 1)) + 1 := by omega
        rw [if_pos hin, if_pos (by omega), this, List.getElem?_cons_succ]
      · rw [if_neg hin, if_neg hx, if_neg (by omega)]

theorem Memory.mem_writeBytes {m : Memory} {a : Nat} {v : List Byte} {c : Host.Cell}
    (h : c ∈ Memory.writeBytes m a v) : c ∈ m ∨ (a ≤ c.1 ∧ c.1 < a + v.length) := by
  induction v generalizing m a with
  | nil => exact .inl h
  | cons b v ih =>
    simp only [List.length_cons]
    rcases ih h with h | h
    · rcases Memory.mem_write h with rfl | h
      · right; simp
      · exact .inl h
    · right; omega

/-- A read of consecutive bytes answers exactly when each of them has been written. -/
theorem Memory.readBytes_eq_some {m : Memory} {n : Nat} {a : Nat} {out : List Byte} :
    Memory.readBytes m a n = some out ↔
      out.length = n ∧ ∀ i < n, out[i]? = Memory.read m (a + i) := by
  induction n generalizing a out with
  | zero => cases out <;> simp [Memory.readBytes]
  | succ n ih =>
    unfold Memory.readBytes
    constructor
    · intro h
      split at h
      · rename_i b bs hb hbs
        cases h
        obtain ⟨hl, hr⟩ := ih.mp hbs
        refine ⟨by simp [hl], fun i hi => ?_⟩
        cases i with
        | zero => simp [hb]
        | succ i =>
          have := hr i (by omega)
          rw [List.getElem?_cons_succ, this]
          congr 1; omega
      · cases h
    · rintro ⟨hl, hr⟩
      cases out with
      | nil => simp at hl
      | cons b bs =>
        have h0 := hr 0 (by omega)
        have hbs : Memory.readBytes m (a + 1) n = some bs := by
          refine ih.mpr ⟨by simpa using hl, fun i hi => ?_⟩
          have := hr (i + 1) (by omega)
          rw [List.getElem?_cons_succ] at this
          rw [this]; congr 1; omega
        simp only [List.getElem?_cons_zero, Nat.add_zero] at h0
        rw [← h0, hbs]

/-- Where every byte has been written, a read of them answers. -/
theorem Memory.readBytes_isSome {m : Memory} {n a : Nat}
    (h : ∀ i < n, (Memory.read m (a + i)).isSome) : ∃ out, Memory.readBytes m a n = some out := by
  induction n generalizing a with
  | zero => exact ⟨[], rfl⟩
  | succ n ih =>
    obtain ⟨b, hb⟩ := Option.isSome_iff_exists.mp (h 0 (by omega))
    obtain ⟨bs, hbs⟩ := ih (a := a + 1) (fun i hi => by
      have := h (i + 1) (by omega)
      rwa [show a + 1 + i = a + (i + 1) by omega])
    exact ⟨b :: bs, by unfold Memory.readBytes; rw [hbs]; simp only [Nat.add_zero] at hb; rw [hb]⟩

end Sys2Proof.Machine
end

