-- ==== Sys2Proof/Laws/State.lean ====
section
/-! SUPPORT. One lemma per field per update of State, so that no proof unfolds a record update. -/

namespace Sys2Proof.Machine

variable (s : State)

@[simp] theorem State.toPhase_phase (p : Phase) : (s.toPhase p).phase = p := rfl
@[simp] theorem State.toPhase_req (p : Phase) : (s.toPhase p).req = s.req := rfl
@[simp] theorem State.toPhase_rsp (p : Phase) : (s.toPhase p).rsp = s.rsp := rfl
@[simp] theorem State.toPhase_q (p : Phase) : (s.toPhase p).q = s.q := rfl
@[simp] theorem State.toPhase_y (p : Phase) : (s.toPhase p).y = s.y := rfl
@[simp] theorem State.toPhase_z (p : Phase) : (s.toPhase p).z = s.z := rfl
@[simp] theorem State.toPhase_sum (p : Phase) : (s.toPhase p).sum = s.sum := rfl
@[simp] theorem State.toPhase_k (p : Phase) : (s.toPhase p).k = s.k := rfl
@[simp] theorem State.toPhase_ivw (p : Phase) : (s.toPhase p).ivw = s.ivw := rfl
@[simp] theorem State.toPhase_tmp (p : Phase) : (s.toPhase p).tmp = s.tmp := rfl
@[simp] theorem State.toPhase_bi (p : Phase) : (s.toPhase p).bi = s.bi := rfl
@[simp] theorem State.toPhase_nb (p : Phase) : (s.toPhase p).nb = s.nb := rfl
@[simp] theorem State.toPhase_padlen (p : Phase) : (s.toPhase p).padlen = s.padlen := rfl
@[simp] theorem State.toPhase_outBuf (p : Phase) : (s.toPhase p).outBuf = s.outBuf := rfl
@[simp] theorem State.toPhase_olen (p : Phase) : (s.toPhase p).olen = s.olen := rfl
@[simp] theorem State.toPhase_rcode (p : Phase) : (s.toPhase p).rcode = s.rcode := rfl
@[simp] theorem State.toPhase_rinfo (p : Phase) : (s.toPhase p).rinfo = s.rinfo := rfl
@[simp] theorem State.toPhase_config (p : Phase) : (s.toPhase p).config = s.config := rfl
@[simp] theorem State.toPhase_host (p : Phase) : (s.toPhase p).host = s.host := rfl
@[simp] theorem State.toPhase_taken (p : Phase) : (s.toPhase p).taken = s.taken := rfl

@[simp] theorem State.responding_phase (r : Response) : (s.responding r).phase = .respond := rfl
@[simp] theorem State.responding_req (r : Response) : (s.responding r).req = s.req := rfl
@[simp] theorem State.responding_rsp (r : Response) : (s.responding r).rsp = some r := rfl
@[simp] theorem State.responding_q (r : Response) : (s.responding r).q = s.q := rfl
@[simp] theorem State.responding_y (r : Response) : (s.responding r).y = s.y := rfl
@[simp] theorem State.responding_z (r : Response) : (s.responding r).z = s.z := rfl
@[simp] theorem State.responding_sum (r : Response) : (s.responding r).sum = s.sum := rfl
@[simp] theorem State.responding_k (r : Response) : (s.responding r).k = s.k := rfl
@[simp] theorem State.responding_ivw (r : Response) : (s.responding r).ivw = s.ivw := rfl
@[simp] theorem State.responding_tmp (r : Response) : (s.responding r).tmp = s.tmp := rfl
@[simp] theorem State.responding_bi (r : Response) : (s.responding r).bi = s.bi := rfl
@[simp] theorem State.responding_nb (r : Response) : (s.responding r).nb = s.nb := rfl
@[simp] theorem State.responding_padlen (r : Response) : (s.responding r).padlen = s.padlen := rfl
@[simp] theorem State.responding_outBuf (r : Response) : (s.responding r).outBuf = s.outBuf := rfl
@[simp] theorem State.responding_olen (r : Response) : (s.responding r).olen = s.olen := rfl
@[simp] theorem State.responding_rcode (r : Response) : (s.responding r).rcode = s.rcode := rfl
@[simp] theorem State.responding_rinfo (r : Response) : (s.responding r).rinfo = s.rinfo := rfl
@[simp] theorem State.responding_config (r : Response) : (s.responding r).config = s.config := rfl
@[simp] theorem State.responding_host (r : Response) : (s.responding r).host = s.host := rfl
@[simp] theorem State.responding_taken (r : Response) : (s.responding r).taken = s.taken := rfl

@[simp] theorem State.succeeded_phase : (s.succeeded).phase = s.phase := rfl
@[simp] theorem State.succeeded_req : (s.succeeded).req = s.req := rfl
@[simp] theorem State.succeeded_rsp : (s.succeeded).rsp = s.rsp := rfl
@[simp] theorem State.succeeded_q : (s.succeeded).q = s.q := rfl
@[simp] theorem State.succeeded_y : (s.succeeded).y = s.y := rfl
@[simp] theorem State.succeeded_z : (s.succeeded).z = s.z := rfl
@[simp] theorem State.succeeded_sum : (s.succeeded).sum = s.sum := rfl
@[simp] theorem State.succeeded_k : (s.succeeded).k = s.k := rfl
@[simp] theorem State.succeeded_ivw : (s.succeeded).ivw = s.ivw := rfl
@[simp] theorem State.succeeded_tmp : (s.succeeded).tmp = s.tmp := rfl
@[simp] theorem State.succeeded_bi : (s.succeeded).bi = s.bi := rfl
@[simp] theorem State.succeeded_nb : (s.succeeded).nb = s.nb := rfl
@[simp] theorem State.succeeded_padlen : (s.succeeded).padlen = s.padlen := rfl
@[simp] theorem State.succeeded_outBuf : (s.succeeded).outBuf = s.outBuf := rfl
@[simp] theorem State.succeeded_olen : (s.succeeded).olen = s.olen := rfl
@[simp] theorem State.succeeded_rcode : (s.succeeded).rcode = 0 := rfl
@[simp] theorem State.succeeded_rinfo : (s.succeeded).rinfo = 0 := rfl
@[simp] theorem State.succeeded_config : (s.succeeded).config = s.config := rfl
@[simp] theorem State.succeeded_host : (s.succeeded).host = s.host := rfl
@[simp] theorem State.succeeded_taken : (s.succeeded).taken = s.taken := rfl

@[simp] theorem State.failed_phase (e : Error) : (s.failed e).phase = s.phase := rfl
@[simp] theorem State.failed_req (e : Error) : (s.failed e).req = s.req := rfl
@[simp] theorem State.failed_rsp (e : Error) : (s.failed e).rsp = s.rsp := rfl
@[simp] theorem State.failed_q (e : Error) : (s.failed e).q = s.q := rfl
@[simp] theorem State.failed_y (e : Error) : (s.failed e).y = s.y := rfl
@[simp] theorem State.failed_z (e : Error) : (s.failed e).z = s.z := rfl
@[simp] theorem State.failed_sum (e : Error) : (s.failed e).sum = s.sum := rfl
@[simp] theorem State.failed_k (e : Error) : (s.failed e).k = s.k := rfl
@[simp] theorem State.failed_ivw (e : Error) : (s.failed e).ivw = s.ivw := rfl
@[simp] theorem State.failed_tmp (e : Error) : (s.failed e).tmp = s.tmp := rfl
@[simp] theorem State.failed_bi (e : Error) : (s.failed e).bi = s.bi := rfl
@[simp] theorem State.failed_nb (e : Error) : (s.failed e).nb = s.nb := rfl
@[simp] theorem State.failed_padlen (e : Error) : (s.failed e).padlen = s.padlen := rfl
@[simp] theorem State.failed_outBuf (e : Error) : (s.failed e).outBuf = s.outBuf := rfl
@[simp] theorem State.failed_olen (e : Error) : (s.failed e).olen = 0 := rfl
@[simp] theorem State.failed_rcode (e : Error) : (s.failed e).rcode = e.kind.code := rfl
@[simp] theorem State.failed_rinfo (e : Error) : (s.failed e).rinfo = e.info := rfl
@[simp] theorem State.failed_config (e : Error) : (s.failed e).config = s.config := rfl
@[simp] theorem State.failed_host (e : Error) : (s.failed e).host = s.host := rfl
@[simp] theorem State.failed_taken (e : Error) : (s.failed e).taken = s.taken := rfl

@[simp] theorem State.accepted_phase (r : Request) : (s.accepted r).phase = .validate := rfl
@[simp] theorem State.accepted_req (r : Request) : (s.accepted r).req = none := rfl
@[simp] theorem State.accepted_rsp (r : Request) : (s.accepted r).rsp = s.rsp := rfl
@[simp] theorem State.accepted_q (r : Request) : (s.accepted r).q = r := rfl
@[simp] theorem State.accepted_y (r : Request) : (s.accepted r).y = s.y := rfl
@[simp] theorem State.accepted_z (r : Request) : (s.accepted r).z = s.z := rfl
@[simp] theorem State.accepted_sum (r : Request) : (s.accepted r).sum = s.sum := rfl
@[simp] theorem State.accepted_k (r : Request) : (s.accepted r).k = s.k := rfl
@[simp] theorem State.accepted_ivw (r : Request) : (s.accepted r).ivw = s.ivw := rfl
@[simp] theorem State.accepted_tmp (r : Request) : (s.accepted r).tmp = s.tmp := rfl
@[simp] theorem State.accepted_bi (r : Request) : (s.accepted r).bi = s.bi := rfl
@[simp] theorem State.accepted_nb (r : Request) : (s.accepted r).nb = s.nb := rfl
@[simp] theorem State.accepted_padlen (r : Request) : (s.accepted r).padlen = s.padlen := rfl
@[simp] theorem State.accepted_outBuf (r : Request) : (s.accepted r).outBuf = s.outBuf := rfl
@[simp] theorem State.accepted_olen (r : Request) : (s.accepted r).olen = s.olen := rfl
@[simp] theorem State.accepted_rcode (r : Request) : (s.accepted r).rcode = s.rcode := rfl
@[simp] theorem State.accepted_rinfo (r : Request) : (s.accepted r).rinfo = s.rinfo := rfl
@[simp] theorem State.accepted_config (r : Request) : (s.accepted r).config = s.config := rfl
@[simp] theorem State.accepted_host (r : Request) : (s.accepted r).host = s.host := rfl
@[simp] theorem State.accepted_taken (r : Request) : (s.accepted r).taken = s.taken := rfl

@[simp] theorem State.submitted_phase (r : Request) : (s.submitted r).phase = s.phase := rfl
@[simp] theorem State.submitted_req (r : Request) : (s.submitted r).req = some r := rfl
@[simp] theorem State.submitted_rsp (r : Request) : (s.submitted r).rsp = s.rsp := rfl
@[simp] theorem State.submitted_q (r : Request) : (s.submitted r).q = s.q := rfl
@[simp] theorem State.submitted_y (r : Request) : (s.submitted r).y = s.y := rfl
@[simp] theorem State.submitted_z (r : Request) : (s.submitted r).z = s.z := rfl
@[simp] theorem State.submitted_sum (r : Request) : (s.submitted r).sum = s.sum := rfl
@[simp] theorem State.submitted_k (r : Request) : (s.submitted r).k = s.k := rfl
@[simp] theorem State.submitted_ivw (r : Request) : (s.submitted r).ivw = s.ivw := rfl
@[simp] theorem State.submitted_tmp (r : Request) : (s.submitted r).tmp = s.tmp := rfl
@[simp] theorem State.submitted_bi (r : Request) : (s.submitted r).bi = s.bi := rfl
@[simp] theorem State.submitted_nb (r : Request) : (s.submitted r).nb = s.nb := rfl
@[simp] theorem State.submitted_padlen (r : Request) : (s.submitted r).padlen = s.padlen := rfl
@[simp] theorem State.submitted_outBuf (r : Request) : (s.submitted r).outBuf = s.outBuf := rfl
@[simp] theorem State.submitted_olen (r : Request) : (s.submitted r).olen = s.olen := rfl
@[simp] theorem State.submitted_rcode (r : Request) : (s.submitted r).rcode = s.rcode := rfl
@[simp] theorem State.submitted_rinfo (r : Request) : (s.submitted r).rinfo = s.rinfo := rfl
@[simp] theorem State.submitted_config (r : Request) : (s.submitted r).config = s.config := rfl
@[simp] theorem State.submitted_host (r : Request) : (s.submitted r).host = s.host := rfl
@[simp] theorem State.submitted_taken (r : Request) : (s.submitted r).taken = s.taken := rfl

@[simp] theorem State.tookResponse_phase (r : Response) : (s.tookResponse r).phase = .idle := rfl
@[simp] theorem State.tookResponse_req (r : Response) : (s.tookResponse r).req = s.req := rfl
@[simp] theorem State.tookResponse_rsp (r : Response) : (s.tookResponse r).rsp = none := rfl
@[simp] theorem State.tookResponse_q (r : Response) : (s.tookResponse r).q = s.q := rfl
@[simp] theorem State.tookResponse_y (r : Response) : (s.tookResponse r).y = s.y := rfl
@[simp] theorem State.tookResponse_z (r : Response) : (s.tookResponse r).z = s.z := rfl
@[simp] theorem State.tookResponse_sum (r : Response) : (s.tookResponse r).sum = s.sum := rfl
@[simp] theorem State.tookResponse_k (r : Response) : (s.tookResponse r).k = s.k := rfl
@[simp] theorem State.tookResponse_ivw (r : Response) : (s.tookResponse r).ivw = s.ivw := rfl
@[simp] theorem State.tookResponse_tmp (r : Response) : (s.tookResponse r).tmp = s.tmp := rfl
@[simp] theorem State.tookResponse_bi (r : Response) : (s.tookResponse r).bi = s.bi := rfl
@[simp] theorem State.tookResponse_nb (r : Response) : (s.tookResponse r).nb = s.nb := rfl
@[simp] theorem State.tookResponse_padlen (r : Response) : (s.tookResponse r).padlen = s.padlen := rfl
@[simp] theorem State.tookResponse_outBuf (r : Response) : (s.tookResponse r).outBuf = s.outBuf := rfl
@[simp] theorem State.tookResponse_olen (r : Response) : (s.tookResponse r).olen = s.olen := rfl
@[simp] theorem State.tookResponse_rcode (r : Response) : (s.tookResponse r).rcode = s.rcode := rfl
@[simp] theorem State.tookResponse_rinfo (r : Response) : (s.tookResponse r).rinfo = s.rinfo := rfl
@[simp] theorem State.tookResponse_config (r : Response) : (s.tookResponse r).config = s.config := rfl
@[simp] theorem State.tookResponse_host (r : Response) : (s.tookResponse r).host = s.host := rfl
@[simp] theorem State.tookResponse_taken (r : Response) : (s.tookResponse r).taken = s.taken ++ [r] := rfl

@[simp] theorem State.setHost_phase (l : List HostMove) : (s.setHost l).phase = s.phase := rfl
@[simp] theorem State.setHost_req (l : List HostMove) : (s.setHost l).req = s.req := rfl
@[simp] theorem State.setHost_rsp (l : List HostMove) : (s.setHost l).rsp = s.rsp := rfl
@[simp] theorem State.setHost_q (l : List HostMove) : (s.setHost l).q = s.q := rfl
@[simp] theorem State.setHost_y (l : List HostMove) : (s.setHost l).y = s.y := rfl
@[simp] theorem State.setHost_z (l : List HostMove) : (s.setHost l).z = s.z := rfl
@[simp] theorem State.setHost_sum (l : List HostMove) : (s.setHost l).sum = s.sum := rfl
@[simp] theorem State.setHost_k (l : List HostMove) : (s.setHost l).k = s.k := rfl
@[simp] theorem State.setHost_ivw (l : List HostMove) : (s.setHost l).ivw = s.ivw := rfl
@[simp] theorem State.setHost_tmp (l : List HostMove) : (s.setHost l).tmp = s.tmp := rfl
@[simp] theorem State.setHost_bi (l : List HostMove) : (s.setHost l).bi = s.bi := rfl
@[simp] theorem State.setHost_nb (l : List HostMove) : (s.setHost l).nb = s.nb := rfl
@[simp] theorem State.setHost_padlen (l : List HostMove) : (s.setHost l).padlen = s.padlen := rfl
@[simp] theorem State.setHost_outBuf (l : List HostMove) : (s.setHost l).outBuf = s.outBuf := rfl
@[simp] theorem State.setHost_olen (l : List HostMove) : (s.setHost l).olen = s.olen := rfl
@[simp] theorem State.setHost_rcode (l : List HostMove) : (s.setHost l).rcode = s.rcode := rfl
@[simp] theorem State.setHost_rinfo (l : List HostMove) : (s.setHost l).rinfo = s.rinfo := rfl
@[simp] theorem State.setHost_config (l : List HostMove) : (s.setHost l).config = s.config := rfl
@[simp] theorem State.setHost_host (l : List HostMove) : (s.setHost l).host = l := rfl
@[simp] theorem State.setHost_taken (l : List HostMove) : (s.setHost l).taken = s.taken := rfl

@[simp] theorem State.setRound_phase (r : RoundRegs) : (s.setRound r).phase = s.phase := rfl
@[simp] theorem State.setRound_req (r : RoundRegs) : (s.setRound r).req = s.req := rfl
@[simp] theorem State.setRound_rsp (r : RoundRegs) : (s.setRound r).rsp = s.rsp := rfl
@[simp] theorem State.setRound_q (r : RoundRegs) : (s.setRound r).q = s.q := rfl
@[simp] theorem State.setRound_y (r : RoundRegs) : (s.setRound r).y = r.y := rfl
@[simp] theorem State.setRound_z (r : RoundRegs) : (s.setRound r).z = r.z := rfl
@[simp] theorem State.setRound_sum (r : RoundRegs) : (s.setRound r).sum = r.sum := rfl
@[simp] theorem State.setRound_k (r : RoundRegs) : (s.setRound r).k = s.k := rfl
@[simp] theorem State.setRound_ivw (r : RoundRegs) : (s.setRound r).ivw = s.ivw := rfl
@[simp] theorem State.setRound_tmp (r : RoundRegs) : (s.setRound r).tmp = s.tmp := rfl
@[simp] theorem State.setRound_bi (r : RoundRegs) : (s.setRound r).bi = s.bi := rfl
@[simp] theorem State.setRound_nb (r : RoundRegs) : (s.setRound r).nb = s.nb := rfl
@[simp] theorem State.setRound_padlen (r : RoundRegs) : (s.setRound r).padlen = s.padlen := rfl
@[simp] theorem State.setRound_outBuf (r : RoundRegs) : (s.setRound r).outBuf = s.outBuf := rfl
@[simp] theorem State.setRound_olen (r : RoundRegs) : (s.setRound r).olen = s.olen := rfl
@[simp] theorem State.setRound_rcode (r : RoundRegs) : (s.setRound r).rcode = s.rcode := rfl
@[simp] theorem State.setRound_rinfo (r : RoundRegs) : (s.setRound r).rinfo = s.rinfo := rfl
@[simp] theorem State.setRound_config (r : RoundRegs) : (s.setRound r).config = s.config := rfl
@[simp] theorem State.setRound_host (r : RoundRegs) : (s.setRound r).host = s.host := rfl
@[simp] theorem State.setRound_taken (r : RoundRegs) : (s.setRound r).taken = s.taken := rfl

@[simp] theorem State.loadedBlock_phase (x : Key) (b : Block) (w : Word) : (s.loadedBlock x b w).phase = .round := rfl
@[simp] theorem State.loadedBlock_req (x : Key) (b : Block) (w : Word) : (s.loadedBlock x b w).req = s.req := rfl
@[simp] theorem State.loadedBlock_rsp (x : Key) (b : Block) (w : Word) : (s.loadedBlock x b w).rsp = s.rsp := rfl
@[simp] theorem State.loadedBlock_q (x : Key) (b : Block) (w : Word) : (s.loadedBlock x b w).q = s.q := rfl
@[simp] theorem State.loadedBlock_y (x : Key) (b : Block) (w : Word) : (s.loadedBlock x b w).y = b.v0 := rfl
@[simp] theorem State.loadedBlock_z (x : Key) (b : Block) (w : Word) : (s.loadedBlock x b w).z = b.v1 := rfl
@[simp] theorem State.loadedBlock_sum (x : Key) (b : Block) (w : Word) : (s.loadedBlock x b w).sum = w := rfl
@[simp] theorem State.loadedBlock_k (x : Key) (b : Block) (w : Word) : (s.loadedBlock x b w).k = x := rfl
@[simp] theorem State.loadedBlock_ivw (x : Key) (b : Block) (w : Word) : (s.loadedBlock x b w).ivw = s.ivw := rfl
@[simp] theorem State.loadedBlock_tmp (x : Key) (b : Block) (w : Word) : (s.loadedBlock x b w).tmp = s.tmp := rfl
@[simp] theorem State.loadedBlock_bi (x : Key) (b : Block) (w : Word) : (s.loadedBlock x b w).bi = 0 := rfl
@[simp] theorem State.loadedBlock_nb (x : Key) (b : Block) (w : Word) : (s.loadedBlock x b w).nb = 1 := rfl
@[simp] theorem State.loadedBlock_padlen (x : Key) (b : Block) (w : Word) : (s.loadedBlock x b w).padlen = s.padlen := rfl
@[simp] theorem State.loadedBlock_outBuf (x : Key) (b : Block) (w : Word) : (s.loadedBlock x b w).outBuf = s.outBuf := rfl
@[simp] theorem State.loadedBlock_olen (x : Key) (b : Block) (w : Word) : (s.loadedBlock x b w).olen = 0 := rfl
@[simp] theorem State.loadedBlock_rcode (x : Key) (b : Block) (w : Word) : (s.loadedBlock x b w).rcode = s.rcode := rfl
@[simp] theorem State.loadedBlock_rinfo (x : Key) (b : Block) (w : Word) : (s.loadedBlock x b w).rinfo = s.rinfo := rfl
@[simp] theorem State.loadedBlock_config (x : Key) (b : Block) (w : Word) : (s.loadedBlock x b w).config = s.config := rfl
@[simp] theorem State.loadedBlock_host (x : Key) (b : Block) (w : Word) : (s.loadedBlock x b w).host = s.host := rfl
@[simp] theorem State.loadedBlock_taken (x : Key) (b : Block) (w : Word) : (s.loadedBlock x b w).taken = s.taken := rfl

@[simp] theorem State.loadedMessage_phase (x : Key) (iv : Block) (pl : BitVec 4) (n : BitVec 32) (p : Phase) : (s.loadedMessage x iv pl n p).phase = p := rfl
@[simp] theorem State.loadedMessage_req (x : Key) (iv : Block) (pl : BitVec 4) (n : BitVec 32) (p : Phase) : (s.loadedMessage x iv pl n p).req = s.req := rfl
@[simp] theorem State.loadedMessage_rsp (x : Key) (iv : Block) (pl : BitVec 4) (n : BitVec 32) (p : Phase) : (s.loadedMessage x iv pl n p).rsp = s.rsp := rfl
@[simp] theorem State.loadedMessage_q (x : Key) (iv : Block) (pl : BitVec 4) (n : BitVec 32) (p : Phase) : (s.loadedMessage x iv pl n p).q = s.q := rfl
@[simp] theorem State.loadedMessage_y (x : Key) (iv : Block) (pl : BitVec 4) (n : BitVec 32) (p : Phase) : (s.loadedMessage x iv pl n p).y = s.y := rfl
@[simp] theorem State.loadedMessage_z (x : Key) (iv : Block) (pl : BitVec 4) (n : BitVec 32) (p : Phase) : (s.loadedMessage x iv pl n p).z = s.z := rfl
@[simp] theorem State.loadedMessage_sum (x : Key) (iv : Block) (pl : BitVec 4) (n : BitVec 32) (p : Phase) : (s.loadedMessage x iv pl n p).sum = s.sum := rfl
@[simp] theorem State.loadedMessage_k (x : Key) (iv : Block) (pl : BitVec 4) (n : BitVec 32) (p : Phase) : (s.loadedMessage x iv pl n p).k = x := rfl
@[simp] theorem State.loadedMessage_ivw (x : Key) (iv : Block) (pl : BitVec 4) (n : BitVec 32) (p : Phase) : (s.loadedMessage x iv pl n p).ivw = iv := rfl
@[simp] theorem State.loadedMessage_tmp (x : Key) (iv : Block) (pl : BitVec 4) (n : BitVec 32) (p : Phase) : (s.loadedMessage x iv pl n p).tmp = s.tmp := rfl
@[simp] theorem State.loadedMessage_bi (x : Key) (iv : Block) (pl : BitVec 4) (n : BitVec 32) (p : Phase) : (s.loadedMessage x iv pl n p).bi = 0 := rfl
@[simp] theorem State.loadedMessage_nb (x : Key) (iv : Block) (pl : BitVec 4) (n : BitVec 32) (p : Phase) : (s.loadedMessage x iv pl n p).nb = n := rfl
@[simp] theorem State.loadedMessage_padlen (x : Key) (iv : Block) (pl : BitVec 4) (n : BitVec 32) (p : Phase) : (s.loadedMessage x iv pl n p).padlen = pl := rfl
@[simp] theorem State.loadedMessage_outBuf (x : Key) (iv : Block) (pl : BitVec 4) (n : BitVec 32) (p : Phase) : (s.loadedMessage x iv pl n p).outBuf = s.outBuf := rfl
@[simp] theorem State.loadedMessage_olen (x : Key) (iv : Block) (pl : BitVec 4) (n : BitVec 32) (p : Phase) : (s.loadedMessage x iv pl n p).olen = 0 := rfl
@[simp] theorem State.loadedMessage_rcode (x : Key) (iv : Block) (pl : BitVec 4) (n : BitVec 32) (p : Phase) : (s.loadedMessage x iv pl n p).rcode = s.rcode := rfl
@[simp] theorem State.loadedMessage_rinfo (x : Key) (iv : Block) (pl : BitVec 4) (n : BitVec 32) (p : Phase) : (s.loadedMessage x iv pl n p).rinfo = s.rinfo := rfl
@[simp] theorem State.loadedMessage_config (x : Key) (iv : Block) (pl : BitVec 4) (n : BitVec 32) (p : Phase) : (s.loadedMessage x iv pl n p).config = s.config := rfl
@[simp] theorem State.loadedMessage_host (x : Key) (iv : Block) (pl : BitVec 4) (n : BitVec 32) (p : Phase) : (s.loadedMessage x iv pl n p).host = s.host := rfl
@[simp] theorem State.loadedMessage_taken (x : Key) (iv : Block) (pl : BitVec 4) (n : BitVec 32) (p : Phase) : (s.loadedMessage x iv pl n p).taken = s.taken := rfl

@[simp] theorem State.fetched_phase (b c : Block) (w : Word) : (s.fetched b c w).phase = .round := rfl
@[simp] theorem State.fetched_req (b c : Block) (w : Word) : (s.fetched b c w).req = s.req := rfl
@[simp] theorem State.fetched_rsp (b c : Block) (w : Word) : (s.fetched b c w).rsp = s.rsp := rfl
@[simp] theorem State.fetched_q (b c : Block) (w : Word) : (s.fetched b c w).q = s.q := rfl
@[simp] theorem State.fetched_y (b c : Block) (w : Word) : (s.fetched b c w).y = b.v0 := rfl
@[simp] theorem State.fetched_z (b c : Block) (w : Word) : (s.fetched b c w).z = b.v1 := rfl
@[simp] theorem State.fetched_sum (b c : Block) (w : Word) : (s.fetched b c w).sum = w := rfl
@[simp] theorem State.fetched_k (b c : Block) (w : Word) : (s.fetched b c w).k = s.k := rfl
@[simp] theorem State.fetched_ivw (b c : Block) (w : Word) : (s.fetched b c w).ivw = s.ivw := rfl
@[simp] theorem State.fetched_tmp (b c : Block) (w : Word) : (s.fetched b c w).tmp = c := rfl
@[simp] theorem State.fetched_bi (b c : Block) (w : Word) : (s.fetched b c w).bi = s.bi := rfl
@[simp] theorem State.fetched_nb (b c : Block) (w : Word) : (s.fetched b c w).nb = s.nb := rfl
@[simp] theorem State.fetched_padlen (b c : Block) (w : Word) : (s.fetched b c w).padlen = s.padlen := rfl
@[simp] theorem State.fetched_outBuf (b c : Block) (w : Word) : (s.fetched b c w).outBuf = s.outBuf := rfl
@[simp] theorem State.fetched_olen (b c : Block) (w : Word) : (s.fetched b c w).olen = s.olen := rfl
@[simp] theorem State.fetched_rcode (b c : Block) (w : Word) : (s.fetched b c w).rcode = s.rcode := rfl
@[simp] theorem State.fetched_rinfo (b c : Block) (w : Word) : (s.fetched b c w).rinfo = s.rinfo := rfl
@[simp] theorem State.fetched_config (b c : Block) (w : Word) : (s.fetched b c w).config = s.config := rfl
@[simp] theorem State.fetched_host (b c : Block) (w : Word) : (s.fetched b c w).host = s.host := rfl
@[simp] theorem State.fetched_taken (b c : Block) (w : Word) : (s.fetched b c w).taken = s.taken := rfl

@[simp] theorem State.chained_phase (b iv : Block) : (s.chained b iv).phase = s.phase := rfl
@[simp] theorem State.chained_req (b iv : Block) : (s.chained b iv).req = s.req := rfl
@[simp] theorem State.chained_rsp (b iv : Block) : (s.chained b iv).rsp = s.rsp := rfl
@[simp] theorem State.chained_q (b iv : Block) : (s.chained b iv).q = s.q := rfl
@[simp] theorem State.chained_y (b iv : Block) : (s.chained b iv).y = b.v0 := rfl
@[simp] theorem State.chained_z (b iv : Block) : (s.chained b iv).z = b.v1 := rfl
@[simp] theorem State.chained_sum (b iv : Block) : (s.chained b iv).sum = s.sum := rfl
@[simp] theorem State.chained_k (b iv : Block) : (s.chained b iv).k = s.k := rfl
@[simp] theorem State.chained_ivw (b iv : Block) : (s.chained b iv).ivw = iv := rfl
@[simp] theorem State.chained_tmp (b iv : Block) : (s.chained b iv).tmp = s.tmp := rfl
@[simp] theorem State.chained_bi (b iv : Block) : (s.chained b iv).bi = s.bi := rfl
@[simp] theorem State.chained_nb (b iv : Block) : (s.chained b iv).nb = s.nb := rfl
@[simp] theorem State.chained_padlen (b iv : Block) : (s.chained b iv).padlen = s.padlen := rfl
@[simp] theorem State.chained_outBuf (b iv : Block) : (s.chained b iv).outBuf = s.outBuf := rfl
@[simp] theorem State.chained_olen (b iv : Block) : (s.chained b iv).olen = s.olen := rfl
@[simp] theorem State.chained_rcode (b iv : Block) : (s.chained b iv).rcode = s.rcode := rfl
@[simp] theorem State.chained_rinfo (b iv : Block) : (s.chained b iv).rinfo = s.rinfo := rfl
@[simp] theorem State.chained_config (b iv : Block) : (s.chained b iv).config = s.config := rfl
@[simp] theorem State.chained_host (b iv : Block) : (s.chained b iv).host = s.host := rfl
@[simp] theorem State.chained_taken (b iv : Block) : (s.chained b iv).taken = s.taken := rfl

@[simp] theorem State.stored_phase (m : Memory) (l n : BitVec 32) (p : Phase) : (s.stored m l n p).phase = p := rfl
@[simp] theorem State.stored_req (m : Memory) (l n : BitVec 32) (p : Phase) : (s.stored m l n p).req = s.req := rfl
@[simp] theorem State.stored_rsp (m : Memory) (l n : BitVec 32) (p : Phase) : (s.stored m l n p).rsp = s.rsp := rfl
@[simp] theorem State.stored_q (m : Memory) (l n : BitVec 32) (p : Phase) : (s.stored m l n p).q = s.q := rfl
@[simp] theorem State.stored_y (m : Memory) (l n : BitVec 32) (p : Phase) : (s.stored m l n p).y = s.y := rfl
@[simp] theorem State.stored_z (m : Memory) (l n : BitVec 32) (p : Phase) : (s.stored m l n p).z = s.z := rfl
@[simp] theorem State.stored_sum (m : Memory) (l n : BitVec 32) (p : Phase) : (s.stored m l n p).sum = s.sum := rfl
@[simp] theorem State.stored_k (m : Memory) (l n : BitVec 32) (p : Phase) : (s.stored m l n p).k = s.k := rfl
@[simp] theorem State.stored_ivw (m : Memory) (l n : BitVec 32) (p : Phase) : (s.stored m l n p).ivw = s.ivw := rfl
@[simp] theorem State.stored_tmp (m : Memory) (l n : BitVec 32) (p : Phase) : (s.stored m l n p).tmp = s.tmp := rfl
@[simp] theorem State.stored_bi (m : Memory) (l n : BitVec 32) (p : Phase) : (s.stored m l n p).bi = n := rfl
@[simp] theorem State.stored_nb (m : Memory) (l n : BitVec 32) (p : Phase) : (s.stored m l n p).nb = s.nb := rfl
@[simp] theorem State.stored_padlen (m : Memory) (l n : BitVec 32) (p : Phase) : (s.stored m l n p).padlen = s.padlen := rfl
@[simp] theorem State.stored_outBuf (m : Memory) (l n : BitVec 32) (p : Phase) : (s.stored m l n p).outBuf = m := rfl
@[simp] theorem State.stored_olen (m : Memory) (l n : BitVec 32) (p : Phase) : (s.stored m l n p).olen = l := rfl
@[simp] theorem State.stored_rcode (m : Memory) (l n : BitVec 32) (p : Phase) : (s.stored m l n p).rcode = s.rcode := rfl
@[simp] theorem State.stored_rinfo (m : Memory) (l n : BitVec 32) (p : Phase) : (s.stored m l n p).rinfo = s.rinfo := rfl
@[simp] theorem State.stored_config (m : Memory) (l n : BitVec 32) (p : Phase) : (s.stored m l n p).config = s.config := rfl
@[simp] theorem State.stored_host (m : Memory) (l n : BitVec 32) (p : Phase) : (s.stored m l n p).host = s.host := rfl
@[simp] theorem State.stored_taken (m : Memory) (l n : BitVec 32) (p : Phase) : (s.stored m l n p).taken = s.taken := rfl

@[simp] theorem State.truncated_phase (l : BitVec 32) : (s.truncated l).phase = .finish := rfl
@[simp] theorem State.truncated_req (l : BitVec 32) : (s.truncated l).req = s.req := rfl
@[simp] theorem State.truncated_rsp (l : BitVec 32) : (s.truncated l).rsp = s.rsp := rfl
@[simp] theorem State.truncated_q (l : BitVec 32) : (s.truncated l).q = s.q := rfl
@[simp] theorem State.truncated_y (l : BitVec 32) : (s.truncated l).y = s.y := rfl
@[simp] theorem State.truncated_z (l : BitVec 32) : (s.truncated l).z = s.z := rfl
@[simp] theorem State.truncated_sum (l : BitVec 32) : (s.truncated l).sum = s.sum := rfl
@[simp] theorem State.truncated_k (l : BitVec 32) : (s.truncated l).k = s.k := rfl
@[simp] theorem State.truncated_ivw (l : BitVec 32) : (s.truncated l).ivw = s.ivw := rfl
@[simp] theorem State.truncated_tmp (l : BitVec 32) : (s.truncated l).tmp = s.tmp := rfl
@[simp] theorem State.truncated_bi (l : BitVec 32) : (s.truncated l).bi = s.bi := rfl
@[simp] theorem State.truncated_nb (l : BitVec 32) : (s.truncated l).nb = s.nb := rfl
@[simp] theorem State.truncated_padlen (l : BitVec 32) : (s.truncated l).padlen = s.padlen := rfl
@[simp] theorem State.truncated_outBuf (l : BitVec 32) : (s.truncated l).outBuf = s.outBuf := rfl
@[simp] theorem State.truncated_olen (l : BitVec 32) : (s.truncated l).olen = l := rfl
@[simp] theorem State.truncated_rcode (l : BitVec 32) : (s.truncated l).rcode = s.rcode := rfl
@[simp] theorem State.truncated_rinfo (l : BitVec 32) : (s.truncated l).rinfo = s.rinfo := rfl
@[simp] theorem State.truncated_config (l : BitVec 32) : (s.truncated l).config = s.config := rfl
@[simp] theorem State.truncated_host (l : BitVec 32) : (s.truncated l).host = s.host := rfl
@[simp] theorem State.truncated_taken (l : BitVec 32) : (s.truncated l).taken = s.taken := rfl

end Sys2Proof.Machine
end

