-- ==== Sys2Proof/Laws/Ops.lean ====
section
/-! SUPPORT. One lemma per shared operation that says everything it can do: if it answers next t, then t is this, and
under these conditions. -/

namespace Sys2Proof.Machine

theorem orFault_next {α : Type} {x : Option α} {f : Fault} {k : α → Out} {t : State} :
    orFault x f k = .next t ↔ ∃ a, x = some a ∧ k a = .next t := by
  cases x <;> simp [orFault]

theorem memWrite_eq_some {cap : Nat} {m m' : Memory} {a : Nat} {v : List Byte} :
    memWrite cap m a v = some m' ↔ v.length = 8 ∧ a + 8 ≤ cap + 8 ∧ m' = Memory.writeBytes m a v := by
  unfold memWrite
  split <;> simp_all [eq_comm]

theorem enterRespond_next {s t : State} :
    enterRespond s = .next t ↔
      ∃ out, Memory.readBytes s.outBuf 0 s.olen.toNat = some out ∧
        t = { s with phase := .respond, rsp := some ⟨s.rcode.setWidth 32, s.rinfo, s.olen, out⟩ } := by
  unfold enterRespond
  rw [orFault_next]
  constructor
  · rintro ⟨out, h, ht⟩; cases ht; exact ⟨out, h, rfl⟩
  · rintro ⟨out, h, rfl⟩; exact ⟨out, h, rfl⟩

/-- Error entry always completes (R205). -/
theorem raise_eq (e : Error) (s : State) :
    raise e s = .next { s with
      rcode := e.kind.code, rinfo := e.info, olen := 0, phase := .respond,
      rsp := some ⟨e.kind.code.setWidth 32, e.info, 0, []⟩ } := rfl

theorem validateStep_none (s : State) : validateStep none s = .next { s with phase := .load } := rfl

theorem validateStep_some (e : Error) (s : State) : validateStep (some e) s = raise e s := rfl

theorem encRoundStep_eq (s : State) :
    encRoundStep s = .next { s with
      y := (encRound s.k ⟨s.y, s.z, s.sum⟩).y, z := (encRound s.k ⟨s.y, s.z, s.sum⟩).z, sum := s.sum + delta,
      phase := if s.sum + delta = limit then .store else s.phase } := by
  unfold encRoundStep
  have hs : (encRound s.k ⟨s.y, s.z, s.sum⟩).sum = s.sum + delta := rfl
  revert hs
  generalize encRound s.k ⟨s.y, s.z, s.sum⟩ = r
  intro hs
  simp only [hs]
  by_cases h : s.sum + delta = limit
  · rw [if_pos h, if_pos h, ← hs]; rfl
  · rw [if_neg h, if_neg h, ← hs]; rfl

theorem decRoundStep_eq (s : State) :
    decRoundStep s = .next { s with
      y := (decRound s.k ⟨s.y, s.z, s.sum⟩).y, z := (decRound s.k ⟨s.y, s.z, s.sum⟩).z, sum := s.sum - delta,
      phase := if s.sum - delta = 0 then .store else s.phase } := by
  unfold decRoundStep
  have hs : (decRound s.k ⟨s.y, s.z, s.sum⟩).sum = s.sum - delta := rfl
  revert hs
  generalize decRound s.k ⟨s.y, s.z, s.sum⟩ = r
  intro hs
  simp only [hs]
  by_cases h : s.sum - delta = 0
  · rw [if_pos h, if_pos h, ← hs]; rfl
  · rw [if_neg h, if_neg h, ← hs]; rfl

theorem finishStep_next {s t : State} :
    finishStep s = .next t ↔
      ∃ out, Memory.readBytes s.outBuf 0 s.olen.toNat = some out ∧
        t = { s with rcode := 0, rinfo := 0, phase := .respond, rsp := some ⟨0, 0, s.olen, out⟩ } := by
  unfold finishStep
  rw [enterRespond_next]
  rfl

theorem blockLoad_next {start : Word} {s t : State} :
    blockLoad start s = .next t ↔
      ∃ k bytes b, keyOfBytes s.q.key = some k ∧ memRead s.q 0 8 = some bytes ∧ blockOfBytes bytes = some b ∧
        t = { s with k := k, y := b.v0, z := b.v1, sum := start, bi := 0, nb := 1, olen := 0, phase := .round } := by
  unfold blockLoad
  simp only [orFault_next]
  constructor
  · rintro ⟨k, hk, bytes, hb, b, hbl, ht⟩; cases ht; exact ⟨k, bytes, b, hk, hb, hbl, rfl⟩
  · rintro ⟨k, bytes, b, hk, hb, hbl, rfl⟩; exact ⟨k, hk, bytes, hb, b, hbl, rfl⟩

/-- The store of a block command is always in bounds (R55). -/
theorem blockStore_eq (s : State) :
    blockStore s = .next { s with
      outBuf := Memory.writeBytes s.outBuf 0 (bytesOfBlock ⟨s.y, s.z⟩), olen := 8, bi := 1, phase := .finish } := by
  unfold blockStore
  rw [show memWrite s.config.maxMsgBytes s.outBuf 0 (bytesOfBlock ⟨s.y, s.z⟩) = _ from
    memWrite_eq_some.mpr ⟨rfl, Nat.le_add_left _ _, rfl⟩]
  rfl

theorem ecbLoad_next {pad : Bool} {done : Phase} {s t : State} :
    ecbLoad pad done s = .next t ↔
      ∃ k, keyOfBytes s.q.key = some k ∧
        t = loadMessage pad done k s.ivw s := by
  unfold ecbLoad
  rw [orFault_next]
  constructor
  · rintro ⟨k, hk, ht⟩; cases ht; exact ⟨k, hk, rfl⟩
  · rintro ⟨k, hk, rfl⟩; exact ⟨k, hk, rfl⟩

theorem cbcLoad_next {ivp pad : Bool} {done : Phase} {s t : State} :
    cbcLoad ivp pad done s = .next t ↔
      ∃ k iv, keyOfBytes s.q.key = some k ∧ ivOf ivp s.q = some iv ∧
        t = loadMessage pad done k iv s := by
  unfold cbcLoad
  simp only [orFault_next]
  constructor
  · rintro ⟨k, hk, iv, hiv, ht⟩; cases ht; exact ⟨k, iv, hk, hiv, rfl⟩
  · rintro ⟨k, iv, hk, hiv, rfl⟩; exact ⟨k, hk, iv, hiv, rfl⟩

theorem blockCount_lt (pad : Bool) (n : BitVec 32) : blockCount pad n.toNat < 2 ^ 32 := by
  have := n.isLt
  unfold blockCount
  split <;> omega

theorem blockCount_toNat (pad : Bool) (n : BitVec 32) :
    (BitVec.ofNat 32 (blockCount pad n.toNat)).toNat = blockCount pad n.toNat := by
  rw [BitVec.toNat_ofNat, Nat.mod_eq_of_lt (blockCount_lt pad n)]

theorem fetchStep_next {pad : Bool} {c : Block → State → State} {s t : State} :
    fetchStep pad c s = .next t ↔
      ∃ bytes b, formBlock pad s.q s.padlen.toNat s.bi.toNat = some bytes ∧ blockOfBytes bytes = some b ∧
        t = c b s := by
  unfold fetchStep
  simp only [orFault_next]
  constructor
  · rintro ⟨bytes, hb, b, hbl, ht⟩; cases ht; exact ⟨bytes, b, hb, hbl, rfl⟩
  · rintro ⟨bytes, b, hb, hbl, rfl⟩; exact ⟨bytes, hb, b, hbl, rfl⟩

theorem storeOutput_next {done : Phase} {s t : State} :
    storeOutput done s = .next t ↔
      8 * s.bi.toNat + 8 ≤ s.config.maxMsgBytes + 8 ∧
        t = { s with
          outBuf := Memory.writeBytes s.outBuf (8 * s.bi.toNat) (bytesOfBlock ⟨s.y, s.z⟩),
          olen := s.olen + 8, bi := s.bi + 1,
          phase := if (s.bi + 1).toNat < s.nb.toNat then .fetch else done } := by
  unfold storeOutput
  rw [orFault_next]
  constructor
  · rintro ⟨m, hm, ht⟩
    obtain ⟨-, hb, rfl⟩ := memWrite_eq_some.mp hm
    cases ht
    exact ⟨hb, rfl⟩
  · rintro ⟨hb, rfl⟩
    exact ⟨_, memWrite_eq_some.mpr ⟨rfl, hb, rfl⟩, rfl⟩

/-- UNPAD on an empty output, on a last byte that is no pad length, and on one that is (R167). -/
theorem unpadStep_next {s t : State} :
    unpadStep s = .next t ↔
      (s.olen = 0 ∧ raise ⟨.badPadding, noByteInfo⟩ s = .next t) ∨
      (s.olen ≠ 0 ∧ ∃ p, Memory.read s.outBuf (s.olen.toNat - 1) = some p ∧
        ((∃ e, padError p s.olen.toNat = some e ∧ raise e s = .next t) ∨
          (padError p s.olen.toNat = none ∧
            t = { s with olen := s.olen - p.setWidth 32, phase := .finish }))) := by
  unfold unpadStep
  by_cases h0 : s.olen = 0
  · simp only [h0, if_true, true_and, ne_eq, not_true_eq_false, false_and, or_false]
  · simp only [h0, if_false, false_and, false_or, orFault_next, ne_eq, not_false_eq_true, true_and]
    constructor
    · rintro ⟨p, hp, h⟩
      refine ⟨p, hp, ?_⟩
      cases he : padError p s.olen.toNat with
      | none => rw [he] at h; cases h; exact .inr ⟨rfl, rfl⟩
      | some e => rw [he] at h; exact .inl ⟨e, rfl, h⟩
    · rintro ⟨p, hp, ⟨e, he, h⟩ | ⟨he, rfl⟩⟩
      · exact ⟨p, hp, by rw [he]; exact h⟩
      · exact ⟨p, hp, by rw [he]; rfl⟩

end Sys2Proof.Machine
end

