-- ==== Sys2Proof/Laws/PerInstr.lean ====
section
/-! SUPPORT. Families of statements about the commands as syntax, one lemma per constructor. -/

namespace Sys2Proof.Laws.EncodeReserved

/-- The encoder writes zeros in CMD[31:10] (30_encoding.md R75, R84). -/
def Statement (i : Instr) : Prop := cmdRsvd (encode i) = 0

theorem encipher : Statement .encipher := by unfold Statement; decide

theorem decipher : Statement .decipher := by unfold Statement; decide

theorem encryptEcb (skip : Bool) : Statement (.encryptEcb skip) := by unfold Statement; cases skip <;> decide

theorem encryptCbc (skip ivp : Bool) : Statement (.encryptCbc skip ivp) := by unfold Statement; cases skip <;> cases ivp <;> decide

theorem decryptEcb (skip : Bool) : Statement (.decryptEcb skip) := by unfold Statement; cases skip <;> decide

theorem decryptCbc (skip ivp : Bool) : Statement (.decryptCbc skip ivp) := by unfold Statement; cases skip <;> cases ivp <;> decide

end Sys2Proof.Laws.EncodeReserved
end

