-- ==== Sys2Proof/Tests/Slice0.lean ====
section
/-! SUPPORT. Tests: words written out from the encoding, values of 95_test_vectors.md and of the rules' own examples, the
smoke test of the well-formedness checks, and a witness for every statement that has hypotheses. -/

open Sys2Proof Sys2Proof.Machine

namespace Sys2Proof.Tests

/-! ### Helpers -/

/-- "super secret key" (95_test_vectors.md, K0) -/
def k0 : List Byte := [0x73, 0x75, 0x70, 0x65, 0x72, 0x20, 0x73, 0x65, 0x63, 0x72, 0x65, 0x74, 0x20, 0x6B, 0x65, 0x79]

/-- The key words of K0 -/
def k0Words : Key := ⟨0x73757065, 0x72207365, 0x63726574, 0x206B6579⟩

/-- "iv_value" (95_test_vectors.md, IV0) -/
def iv0 : List Byte := [0x69, 0x76, 0x5F, 0x76, 0x61, 0x6C, 0x75, 0x65]

/-- "test vec" -/
def testVec : List Byte := [0x74, 0x65, 0x73, 0x74, 0x20, 0x76, 0x65, 0x63]

/-- "test vector 1" -/
def testVector1 : List Byte := testVec ++ [0x74, 0x6F, 0x72, 0x20, 0x31]

/-- A well-formed request under K0. -/
def request (cmd : Word) (iv data : List Byte) : Request :=
  { cmd := cmd, keyLen := 16, key := k0, ivLen := BitVec.ofNat 32 iv.length, iv := iv,
    dataLen := BitVec.ofNat 32 data.length, data := data }

/-- The reset state with a request latched, in a phase. -/
def inPhase (p : Phase) (q : Request) : State := { State.reset with phase := p, q := q }

/-- One observation of a step that answers next. -/
def onNext {α : Type} (f : State → α) : Out → Option α
  | .next t => some (f t)
  | .fault _ => none
  | .refused _ => none

theorem exists_next {o : Out} (h : (onNext (fun _ => ()) o).isSome = true) : ∃ t, o = .next t := by
  cases o with
  | next t => exact ⟨t, rfl⟩
  | fault f => simp [onNext] at h
  | refused r => simp [onNext] at h

/-! ### Decoding: each word is written bit by bit from R70 and R82 -/

theorem test_decode_encipher : decode 0b00000000000000000000000000000001 = .instr .encipher := by decide
/-- V-IGN: the bits ENCIPHER does not read are all ones. -/
theorem test_decode_encipher_unread_bits : decode 0b00000000000000000000001111110001 = .instr .encipher := by decide
theorem test_decode_decipher : decode 0b00000000000000000000000000000010 = .instr .decipher := by decide
theorem test_decode_encrypt_ecb_skip : decode 0b00000000000000000000000100000011 = .instr (.encryptEcb true) := by decide
/-- V-ECBIV: IV_PRESENT is not read under ECB. -/
theorem test_decode_encrypt_ecb_unread_iv : decode 0b00000000000000000000001000000011 = .instr (.encryptEcb false) := by decide
theorem test_decode_encrypt_cbc_iv : decode 0b00000000000000000000001000010011 = .instr (.encryptCbc false true) := by decide
theorem test_decode_encrypt_cbc_skip : decode 0b00000000000000000000000100010011 = .instr (.encryptCbc true false) := by decide
theorem test_decode_decrypt_ecb : decode 0b00000000000000000000000000000100 = .instr (.decryptEcb false) := by decide
theorem test_decode_decrypt_cbc_skip : decode 0b00000000000000000000000100010100 = .instr (.decryptCbc true false) := by decide
theorem test_decode_decrypt_cbc_iv : decode 0b00000000000000000000001000010100 = .instr (.decryptCbc false true) := by decide
theorem test_decode_reserved_bit : decode 0b00000000000000000000010000000001 = .illegal 0x401 := by decide
theorem test_decode_top_op : decode 0b00000000000000000000000000001111 = .illegal 0xF := by decide
theorem test_decode_top_mode : decode 0b00000000000000000000000011110100 = .unsupported 15 := by decide
theorem test_table_word : decodeTableWord 32 0x313 = some (.encryptCbc true true) := by decide
theorem test_table_word_illegal : decodeTableWord 32 0x5 = none := by decide
/-- An opcode-table word runs as the first instruction after reset. -/
theorem test_first_step : onNext (·.phase) (step (State.reset.withFetchWord 32 0x00000213)) = some .load := by decide

/-! ### Well-formedness: each check refuses an ill-formed term -/

theorem test_wf_request : (request 1 iv0 testVec).wf = true := by decide
theorem test_illformed_key : ({ request 1 iv0 testVec with keyLen := 15 } : Request).wf = false := by decide
theorem test_illformed_iv : ({ request 1 iv0 testVec with ivLen := 7 } : Request).wf = false := by decide
theorem test_illformed_data : ({ request 1 iv0 testVec with dataLen := 9 } : Request).wf = false := by decide
theorem test_illformed_config_zero : Config.wf ⟨0⟩ = false := by decide
theorem test_illformed_config_large : Config.wf ⟨2 ^ 32 - 8⟩ = false ∧ Config.wf ⟨2 ^ 32 - 9⟩ = true := by decide
theorem test_illformed_response_length : Response.wf ⟨0, 0, 2, [1]⟩ = false := by decide
theorem test_illformed_response_status : Response.wf ⟨9, 0, 0, []⟩ = false := by decide
theorem test_illformed_response_error : Response.wf ⟨6, 9, 1, [1]⟩ = false := by decide

/-! ### Codec and round engine: V-CODEC, section 2.2, V-TRACE, V-ENC1, V-ZERO-E, V-FF-D -/

theorem test_codec_word : wordOfBytes [0x80, 0x00, 0x00, 0x01] = some 0x80000001 := by decide
theorem test_codec_bytes : bytesOfWord 0xDF5394FC = [0xDF, 0x53, 0x94, 0xFC] := by decide
theorem test_codec_key : keyOfBytes k0 = some k0Words := by decide
theorem test_codec_xor : (blockOfBytes testVec).bind (fun a => (blockOfBytes iv0).map (xorBlock a)) = some ⟨0x1D132C02, 0x411A1006⟩ := by decide
theorem test_mix_top_bit : mixF 0x80000000 = 0x84000000 := by decide
theorem test_mix_wraps : mixF 0xFFFFFFFF = 0xF800000E := by decide
theorem test_schedule_round6 : (yIndex 0x1715609D).val = 1 ∧ (zIndex 0xB54CDA56).val = 3 := by decide
theorem test_encipher_v1 : encipher k0Words ⟨0x74657374, 0x20766563⟩ = ⟨0xDF5394FC, 0xF357BFE2⟩ := by decide
theorem test_encipher_zero : encipher ⟨0, 0, 0, 0⟩ ⟨0, 0⟩ = ⟨0xDEE9D4D8, 0xF7131ED9⟩ := by decide
set_option maxRecDepth 4096 in
theorem test_decipher_ones :
    decipher ⟨0xFFFFFFFF, 0xFFFFFFFF, 0xFFFFFFFF, 0xFFFFFFFF⟩ ⟨0xFFFFFFFF, 0xFFFFFFFF⟩ = ⟨0xF3FCC7EF, 0xE11D66E5⟩ := by decide

/-! ### One step of each command -/

/-- R113's example, V-TRACE r = 1 -/
theorem test_encipher_round :
    onNext (fun t => (t.y, t.sum, t.z)) (exec .encipher { inPhase .round (request 1 [] testVec) with
      y := 0x74657374, z := 0x20766563, sum := 0, k := k0Words }) = some (0xCA0EAD8F, 0x9E3779B9, 0xEEE1E97C) := by decide
/-- V-TRACE r = 32: the last round leaves ROUND. -/
theorem test_encipher_last_round :
    onNext (fun t => (t.y, t.z, t.phase)) (exec .encipher { inPhase .round (request 1 [] testVec) with
      y := 0x04CC43CA, z := 0xF9E0CAEB, sum := 0x28B7BD67, k := k0Words }) = some (0xDF5394FC, 0xF357BFE2, .store) := by decide
/-- R116's example -/
theorem test_decipher_round :
    onNext (fun t => (t.z, t.sum, t.y)) (exec .decipher { inPhase .round (request 2 [] testVec) with
      y := 0xDF5394FC, z := 0xF357BFE2, sum := 0xC6EF3720, k := k0Words }) = some (0xF9E0CAEB, 0x28B7BD67, 0x04CC43CA) := by decide
/-- R105's example -/
theorem test_decipher_store :
    onNext (fun t => (Memory.readBytes t.outBuf 0 8, t.olen)) (exec .decipher { inPhase .store (request 2 [] testVec) with
      y := 0xDF5394FC, z := 0xF357BFE2 }) = some (some [0xDF, 0x53, 0x94, 0xFC, 0xF3, 0x57, 0xBF, 0xE2], 8) := by decide
/-- V-PADTAB, n = 13 -/
theorem test_encrypt_ecb_load :
    onNext (fun t => (t.padlen, t.nb, t.phase)) (exec (.encryptEcb false) (inPhase .load (request 3 [] testVector1))) =
      some (3, 2, .fetch) := by decide
/-- "tor 1" ++ 03 03 03 (95_test_vectors.md, V4 block 1) -/
theorem test_encrypt_ecb_fetch_padded :
    onNext (fun t => (t.y, t.z, t.sum)) (exec (.encryptEcb false) { inPhase .fetch (request 3 [] testVector1) with
      bi := 1, nb := 2, padlen := 3 }) = some (0x746F7220, 0x31030303, 0) := by decide
/-- R144's example -/
theorem test_encrypt_cbc_fetch :
    onNext (fun t => (t.y, t.z)) (exec (.encryptCbc false true) { inPhase .fetch (request 0x213 iv0 testVector1) with
      nb := 2, padlen := 3, ivw := ⟨0x69765F76, 0x616C7565⟩ }) = some (0x1D132C02, 0x411A1006) := by decide
/-- R144's example: IVW becomes the ciphertext block. -/
theorem test_encrypt_cbc_store :
    onNext (fun t => (t.ivw, t.bi, t.phase)) (exec (.encryptCbc false true) { inPhase .store (request 0x213 iv0 testVector1) with
      y := 0x7DC617B4, z := 0xE6FFA9D6, nb := 2, ivw := ⟨0x69765F76, 0x616C7565⟩ }) =
      some (⟨0x7DC617B4, 0xE6FFA9D6⟩, 1, .fetch) := by decide
/-- R213's example: a last byte 09 -/
theorem test_decrypt_ecb_bad_padding :
    onNext (·.rsp) (exec (.decryptEcb false) { inPhase .unpad (request 4 [] testVec) with olen := 8, outBuf := [(7, 0x09)] }) =
      some (some ⟨6, 9, 0, []⟩) := by decide
/-- V-PAD: a last byte 05 is removed with the four bytes before it, whatever they are. -/
theorem test_decrypt_ecb_unpad :
    onNext (fun t => (t.olen, t.phase)) (exec (.decryptEcb false) { inPhase .unpad (request 4 [] testVec) with
      olen := 8, outBuf := [(3, 0x41), (7, 0x05)] }) = some (3, .finish) := by decide
/-- R145's example: the ciphertext block is captured before the rounds. -/
theorem test_decrypt_cbc_fetch :
    onNext (fun t => (t.tmp, t.y, t.sum)) (exec (.decryptCbc false true) (inPhase .fetch
      (request 0x214 iv0 [0x7D, 0xC6, 0x17, 0xB4, 0xE6, 0xFF, 0xA9, 0xD6]))) =
      some (⟨0x7DC617B4, 0xE6FFA9D6⟩, 0x7DC617B4, 0xC6EF3720) := by decide
/-- R145's example: XOR with the old IVW, then IVW is the ciphertext block. -/
theorem test_decrypt_cbc_store :
    onNext (fun t => (t.y, t.z, t.ivw)) (exec (.decryptCbc false true) { inPhase .store (request 0x214 iv0 testVec) with
      y := 0x1D132C02, z := 0x411A1006, nb := 1, ivw := ⟨0x69765F76, 0x616C7565⟩, tmp := ⟨0x7DC617B4, 0xE6FFA9D6⟩ }) =
      some (0x74657374, 0x20766563, ⟨0x7DC617B4, 0xE6FFA9D6⟩) := by decide

/-! ### Transact: V1, V4, V7, V5 -/

theorem test_transact_v1 : transact 1024 (request 0x3 [] testVector1) = some (okResponse
    [223, 83, 148, 252, 243, 87, 191, 226, 116, 252, 121, 16, 154, 53, 112, 203]) := by decide
theorem test_transact_v4 : transact 1024 (request 0x213 iv0 testVector1) = some (okResponse
    [125, 198, 23, 180, 230, 255, 169, 214, 221, 5, 37, 102, 118, 82, 92, 220]) := by decide
set_option maxRecDepth 4096 in
theorem test_transact_v7 : transact 1024 (request 0x214 iv0
    [125, 198, 23, 180, 230, 255, 169, 214, 221, 5, 37, 102, 118, 82, 92, 220]) = some (okResponse testVector1) := by decide
theorem test_transact_v5 : transact 1024 (request 0x313 iv0 (List.replicate 14 0x41)) = some ⟨2, 14, 0, []⟩ := by decide

/-! ### Witnesses: states and operands that meet the hypotheses of each statement -/

theorem witness_DecodeInvertsEncode : (0x3F1 : Word) &&& readMask .encipher = encode .encipher := by decide
theorem witness_OpcodeRowsAreDisjoint :
    rowOf (.encryptCbc false false) ∈ opcodeMap ∧ (rowOf (.encryptCbc false false)).selects 0x313 = true := by decide
theorem witness_EveryWordHasOneOutcome :
    cmdRsvd 0x400 ≠ 0 ∧ cmdOp 0x0 = 0 ∧ 5 ≤ (cmdOp 0x5).toNat ∧
    (cmdRsvd 0x23 = 0 ∧ cmdOp 0x23 = 3 ∧ 2 ≤ (cmdMode 0x23).toNat) ∧ (cmdOp 0xF4 = 4 ∧ 2 ≤ (cmdMode 0xF4).toNat) ∧
    decode 0x23 = .unsupported 2 := by decide
/-- Each mnemonic assembled, `iv=` where it is rejected, operands that assemble, and the last ASCII code. -/
theorem witness_AssemblerFollowsTheSyntax :
    (assemble ⟨.encipher, .text ['k'], none, .hex []⟩).isSome = true ∧
    (assemble ⟨.decipher, .text ['k'], none, .hex []⟩).isSome = true ∧
    (assemble ⟨.encrypt (some .cbc) true, .text ['k'], some (.hex ['6', '9']), .hex ['0', 'F']⟩).isSome = true ∧
    (assemble ⟨.encrypt none false, .text ['k'], none, .hex []⟩).isSome = true ∧
    (assemble ⟨.decrypt (some .ecb) true, .text ['k'], none, .hex []⟩).isSome = true ∧
    (assemble ⟨.decrypt none true, .text ['k'], none, .hex []⟩).isSome = true ∧
    assemble ⟨.encrypt none false, .text ['k'], some (.hex []), .hex []⟩ = none ∧
    assemble ⟨.decipher, .text ['k'], some (.hex []), .hex []⟩ = none ∧
    AsmMnemonic.decrypt (some .ecb) true ≠ .decrypt (some .cbc) true ∧
    asmBytes (.text ['k']) = some [0x6B] ∧ asmIv (some (.hex ['6', '9'])) = some [0x69] ∧ [(0x6B : Byte)].length < 2 ^ 32 ∧
    (Char.ofNat 127).toNat < 128 := by decide
/-- R87's rows with `.SKIP` and `iv=`; a byte in hex of both cases. -/
theorem test_assembled_words :
    (assemble ⟨.encrypt (some .cbc) true, .hex [], some (.hex []), .hex []⟩).map (·.cmd) = some 0x313 ∧
    (assemble ⟨.decrypt (some .cbc) true, .hex [], none, .hex ['0', 'F', 'f', '0']⟩).map (fun r => (r.cmd, r.data)) =
      some (0x114, [0x0F, 0xF0]) := by decide
theorem witness_CodecIsInvertible : (slice testVec 0 4).length = 4 ∧ testVec.length = 8 := by decide
theorem witness_WordXorIsByteXor : testVec.length = 8 ∧ iv0.length = 8 := by decide
/-- The last block, partial, and the last whole one. -/
theorem witness_FormedBlocksAreThoseOfTheMessage :
    (request 3 [] testVector1).wf = true ∧ 1 ≤ (request 3 [] testVector1).dataLen.toNat / 8 ∧
    8 * 0 + 8 ≤ (request 3 [] testVector1).dataLen.toNat := by decide
theorem witness_SumCountsTheRounds : 0 ≤ 32 ∧ 32 ≤ 32 := by decide
theorem witness_RoundStepEnciphers :
    (inPhase .round (request 1 [] testVec)).phase = .round ∧ enciphers .encipher = true ∧
    enciphers (.encryptEcb true) = true ∧ enciphers (.encryptCbc true true) = true := by decide
theorem witness_RoundStepDeciphers :
    (inPhase .round (request 2 [] testVec)).phase = .round ∧ enciphers .decipher = false ∧
    enciphers (.decryptEcb true) = false ∧ enciphers (.decryptCbc true true) = false := by decide
theorem witness_ValidateStepOfEachCommand :
    (inPhase .validate (request 1 [] testVec)).phase = .validate ∧ decode (request 1 [] testVec).cmd = .instr .encipher ∧
    operandError 1024 (request 1 [] testVec) .encipher = none ∧
    operandError 1024 (request 0x313 iv0 (List.replicate 14 0)) (.encryptCbc true true) = some ⟨.unalignedData, 14⟩ := by decide
theorem witness_LoadStepOfBlockCommands :
    let s := inPhase .load (request 1 [] testVec)
    s.phase = .load ∧ s.q.wf = true ∧ s.q.keyLen = 16 ∧ s.q.dataLen = 8 := by decide
/-- With an IV and with padding, and with neither block nor padding. -/
theorem witness_LoadStepOfMessageCommands :
    (let s := inPhase .load (request 0x213 iv0 testVector1)
     s.phase = .load ∧ isMessage (.encryptCbc false true) = true ∧ s.q.wf = true ∧ s.q.keyLen = 16 ∧
     readsIv (.encryptCbc false true) = true ∧ s.q.ivLen = 8) ∧
    (let s := inPhase .load (request 4 [] [])
     s.phase = .load ∧ isMessage (.decryptEcb false) = true ∧ s.q.wf = true ∧ s.q.keyLen = 16 ∧
     readsIv (.decryptEcb false) = false) := by decide
/-- The padded last block of an encrypt, and the last block of a decrypt. -/
theorem witness_FetchStepOfMessageCommands :
    (let s := { inPhase .fetch (request 3 [] testVector1) with bi := 1, nb := 2, padlen := 3 }
     s.phase = .fetch ∧ isMessage (.encryptEcb false) = true ∧ s.q.wf = true ∧
     s.bi.toNat < blockCount true s.q.dataLen.toNat ∧ s.padlen.toNat = padLenOf s.q.dataLen.toNat) ∧
    (let s := inPhase .fetch (request 0x214 iv0 testVec)
     s.phase = .fetch ∧ isMessage (.decryptCbc false true) = true ∧ s.q.wf = true ∧
     s.bi.toNat < blockCount false s.q.dataLen.toNat ∧ pads (.decryptCbc false true) = false ∧
     s.q.dataLen.toNat % 8 = 0) := by decide
theorem witness_StoreStepOfBlockCommands :
    (inPhase .store (request 1 [] testVec)).phase = .store ∧ isMessage .encipher = false ∧ isMessage .decipher = false := by decide
/-- The last block that fits. -/
theorem witness_StoreStepOfMessageCommands :
    let s := { inPhase .store (request 3 [] testVec) with bi := 128 }
    s.phase = .store ∧ isMessage (.encryptEcb false) = true ∧ 8 * s.bi.toNat + 8 ≤ s.config.maxMsgBytes + 8 := by decide
/-- An empty output; the last bytes 0, 9, 8 and 1. -/
theorem witness_UnpadStepOfDecrypts :
    let s (m : Memory) := { inPhase .unpad (request 4 [] testVec) with olen := 8, outBuf := m }
    unpads (.decryptEcb false) = true ∧ unpads (.decryptCbc false true) = true ∧
    (inPhase .unpad (request 4 [] [])).olen = 0 ∧ (s []).phase = .unpad ∧ (s []).olen ≠ 0 ∧
    Memory.read (s [(7, 0)]).outBuf 7 = some 0 ∧
    Memory.read (s [(7, 9)]).outBuf 7 = some 9 ∧ 8 < (9 : Byte).toNat ∧
    Memory.read (s [(7, 8)]).outBuf 7 = some 8 ∧ ¬((8 : Byte) = 0 ∨ 8 < (8 : Byte).toNat ∨ (s []).olen.toNat < (8 : Byte).toNat) ∧
    Memory.read (s [(7, 1)]).outBuf 7 = some 1 ∧ ¬((1 : Byte) = 0 ∨ 8 < (1 : Byte).toNat ∨ (s []).olen.toNat < (1 : Byte).toNat) := by decide
theorem witness_UnpadReadsOnlyTheLastByte :
    let s := { inPhase .unpad (request 4 [] testVec) with olen := 8, outBuf := [(6, 2), (7, 2)] }
    s.phase = .unpad ∧ unpads (.decryptEcb false) = true ∧
    Memory.read [(0, 1), (7, 2)] (s.olen.toNat - 1) = Memory.read s.outBuf (s.olen.toNat - 1) ∧
    ∃ t, exec (.decryptEcb false) s = .next t := ⟨by decide, by decide, by decide, exists_next (by decide)⟩
theorem witness_FinishStepOfEachCommand :
    let s := { inPhase .finish (request 4 [] testVec) with olen := 2, outBuf := [(0, 1), (1, 2)] }
    s.phase = .finish ∧ outputWritten s s.olen.toNat := ⟨by decide, fun a ha => by
      have : ∀ a < 2, (Memory.read [(0, 1), (1, 2)] a).isSome = true := by decide
      exact this a ha⟩
/-- Each of the four host lists. -/
theorem witness_StepRunsTheDecodedCommand :
    let s (l : List HostMove) := { inPhase .validate (request 0x313 iv0 testVec) with host := l }
    (s []).phase.active = true ∧ decode (s []).q.cmd = .instr (.encryptCbc true true) ∧ (s []).host = [] ∧
    (s [.submit (request 1 [] [])]).host = .submit (request 1 [] []) :: [] ∧
    (s [.take]).host = .take :: [] ∧ (s [.take]).rsp = none ∧ (s [.engine, .take]).host = .engine :: [.take] := by decide
theorem witness_PlacedCommandRunsNext : 8 ≤ ({ State.reset with config := ⟨8⟩ } : State).config.maxMsgBytes := by decide
theorem witness_ValidateStepReportsTheFirstError :
    let s (q : Request) := inPhase .validate q
    (s (request 1 [] testVec)).phase = .validate ∧ (s (request 1 [] testVec)).host = [] ∧
    validate 1024 (s (request 1 [] testVec)).q = none ∧
    validate 1024 (s (request 5 [] testVec)).q = some ⟨.illegalCommand, 5⟩ := by decide
/-- One request for each error of VALIDATE, at the boundary of its cause, and the first of several errors (R204). -/
theorem witness_ErrorsReportTheirCause :
    validate 16 (request 0x401 [] testVec) = some ⟨.illegalCommand, 0x401⟩ ∧
    validate 16 (request 0x23 [] testVec) = some ⟨.unsupportedMode, 2⟩ ∧
    validate 16 { request 0x313 [1] (List.replicate 14 0) with keyLen := 15 } = some ⟨.keyLength, 15⟩ ∧
    validate 16 (request 2 [] (List.replicate 7 0)) = some ⟨.blockLength, 7⟩ ∧
    validate 16 (request 3 [] (List.replicate 17 0)) = some ⟨.capacity, 17⟩ ∧
    validate 16 (request 0x213 [1, 2, 3, 4] (List.replicate 17 0)) = some ⟨.capacity, 17⟩ ∧
    validate 16 (request 0x313 [1, 2, 3, 4] (List.replicate 14 0)) = some ⟨.ivLength, 4⟩ ∧
    validate 16 (request 0x213 [1, 2, 3, 4] testVec) = some ⟨.ivLength, 4⟩ ∧
    validate 16 (request 4 [] (List.replicate 15 0)) = some ⟨.unalignedData, 15⟩ ∧
    validate 16 (request 4 [] (List.replicate 16 0)) = none := by decide
theorem witness_AcceptLatchesTheRequest :
    let s := { State.reset with req := some (request 1 [] testVec) }
    s.phase = .idle ∧ s.req = some (request 1 [] testVec) ∧ s.host = [] := by decide
/-- A well-formed request where submit is enabled, an ill-formed one there, and a phase where it is not enabled. -/
theorem witness_SubmitPlacesOneWellFormedRequest :
    let s (r : Request) := { State.reset with host := [.submit r] }
    let r := request 1 [] testVec
    let bad := { r with keyLen := 15 }
    (s r).host = .submit r :: [] ∧ (s r).phase = .idle ∧ (s r).req = none ∧ (s r).rsp = none ∧
    (r.key.length = r.keyLen.toNat ∧ r.iv.length = r.ivLen.toNat ∧ r.data.length = r.dataLen.toNat) ∧
    bad.key.length ≠ bad.keyLen.toNat ∧ { s r with phase := .round }.phase ≠ .idle := by decide
theorem witness_TakeReturnsToIdle :
    let s := { inPhase .respond (request 1 [] testVec) with rsp := some ⟨0, 0, 1, [7]⟩, host := [.take] }
    s.host = .take :: [] ∧ s.rsp = some ⟨0, 0, 1, [7]⟩ := by decide
theorem witness_EngineWaitsForTheHost :
    (inPhase .respond (request 1 [] testVec)).host = [] ∧ (inPhase .respond (request 1 [] testVec)).phase = .respond ∧
    State.reset.host = [] ∧ State.reset.phase = .idle ∧ State.reset.req = none := by decide
theorem witness_ResetEventClearsPhaseAndPorts :
    ({ inPhase .round (request 1 [] testVec) with host := [.reset, .take] } : State).host = .reset :: [.take] := by decide

/-- A state of ENCIPHER before its first round, in every register as the steps leave it. -/
def beforeRounds : State :=
  { inPhase .round (request 1 [] testVec) with
    y := 0x74657374, z := 0x20766563, sum := 0, k := k0Words, bi := 0, nb := 1, olen := 0 }

/-- Every phase with an engine step. -/
theorem witness_PhasesFollowTheStepRules :
    (∃ t, engineStep { State.reset with req := some (request 1 [] testVec) } = .next t) ∧
    (∃ t, engineStep (inPhase .validate (request 1 [] testVec)) = .next t) ∧
    (∃ t, engineStep (inPhase .load (request 1 [] testVec)) = .next t) ∧
    (∃ t, engineStep (inPhase .fetch (request 4 [] testVec)) = .next t) ∧
    (∃ t, engineStep beforeRounds = .next t) ∧
    (∃ t, engineStep (inPhase .store (request 4 [] testVec)) = .next t) ∧
    (∃ t, engineStep (inPhase .unpad (request 4 [] [])) = .next t) ∧
    (∃ t, engineStep (inPhase .finish (request 4 [] [])) = .next t) :=
  ⟨exists_next (by decide), exists_next (by decide), exists_next (by decide), exists_next (by decide),
   exists_next (by decide), exists_next (by decide), exists_next (by decide), exists_next (by decide)⟩
/-- A step in each phase; `pads` fails for a decrypt. -/
theorem witness_CommandsWriteOnlyTheirRegisters :
    (∃ t, exec .encipher (inPhase .validate (request 1 [] testVec)) = .next t) ∧
    (∃ t, exec .encipher (inPhase .load (request 1 [] testVec)) = .next t) ∧
    (∃ t, exec (.decryptCbc false true) (inPhase .fetch (request 0x214 iv0 testVec)) = .next t) ∧
    (∃ t, exec .encipher beforeRounds = .next t) ∧
    (∃ t, exec (.decryptCbc false true) (inPhase .store (request 0x214 iv0 testVec)) = .next t) ∧
    (∃ t, exec (.decryptEcb false) (inPhase .unpad (request 4 [] [])) = .next t) ∧
    (∃ t, exec (.decryptEcb true) (inPhase .finish (request 4 [] [])) = .next t) ∧ pads (.decryptCbc false true) = false ∧
    onNext (·.phase) (exec .encipher (inPhase .validate (request 1 [] testVec))) = some .load :=
  ⟨exists_next (by decide), exists_next (by decide), exists_next (by decide), exists_next (by decide),
   exists_next (by decide), exists_next (by decide), exists_next (by decide), by decide, by decide⟩
theorem witness_CommandsStopOutsideTheirPhases :
    hasPhase .encipher (inPhase .fetch (request 1 [] testVec)).phase = false ∧
    hasPhase (.decryptEcb true) (inPhase .unpad (request 0x104 [] testVec)).phase = false ∧
    hasPhase (.encryptCbc true true) (inPhase .respond (request 0x313 iv0 testVec)).phase = false := by decide
/-- The first block past each buffer, a block command's data one byte short, and one byte missing. -/
theorem witness_AccessesOutsideTheirBuffersStop :
    (let s := { inPhase .store (request 3 [] testVec) with bi := 129 }
     s.phase = .store ∧ isMessage (.encryptEcb false) = true ∧ s.config.maxMsgBytes + 8 < 8 * s.bi.toNat + 8) ∧
    (let s := { inPhase .fetch (request 4 [] testVec) with bi := 1 }
     s.phase = .fetch ∧ isMessage (.decryptEcb false) = true ∧ pads (.decryptEcb false) = false ∧
     s.q.dataLen.toNat < 8 * s.bi.toNat + 8) ∧
    (let s := inPhase .load (request 1 [] (List.replicate 7 0))
     s.phase = .load ∧ isMessage .encipher = false ∧ s.q.key.length = 16 ∧ s.q.dataLen.toNat < 8) ∧
    (let s := { inPhase .fetch (request 3 [] testVector1) with bi := 2 }
     s.phase = .fetch ∧ pads (.encryptEcb false) = true ∧ s.q.dataLen.toNat / 8 < s.bi.toNat) ∧
    (let s := { inPhase .unpad (request 4 [] testVec) with olen := 8, outBuf := [(6, 1)] }
     s.phase = .unpad ∧ unpads (.decryptEcb false) = true ∧ s.olen ≠ 0 ∧ Memory.read s.outBuf (s.olen.toNat - 1) = none) ∧
    (let s := { inPhase .finish (request 4 [] testVec) with olen := 2, outBuf := [(0, 1)] }
     s.phase = .finish ∧ 1 < s.olen.toNat ∧ Memory.read s.outBuf 1 = none) := by decide
theorem witness_ChainingRegistersBelongToCbc :
    chains (.encryptEcb true) = false ∧
    ∃ t, exec (.encryptEcb true) (inPhase .load (request 0x103 [] testVec)) = .next t := ⟨by decide, exists_next (by decide)⟩

/-- The invariant of a state inside a transaction. -/
theorem beforeRounds_inv : Inv beforeRounds where
  config := by decide
  memory := by decide
  capacity := by intro c h; cases h
  request := by intro r h; cases h
  response := by decide
  responseWf := by intro r h; cases h
  takenWf := by intro r h; cases h
  latched := by intro _; decide
  command := by
    intro _ _
    refine ⟨.encipher, by decide, by decide, by decide, ⟨?_, ?_, ?_, ?_, ?_, ?_⟩, 32, by decide, by decide, by decide⟩
    · decide
    · intro h; cases h
    · decide
    · decide
    · decide
    · intro a h; exact absurd h (Nat.not_lt_zero a)

/-- The least and the largest parameter, and the one of State.reset. -/
theorem witness_InvariantAtReset : Config.wf ⟨1⟩ = true ∧ Config.wf ⟨2 ^ 32 - 9⟩ = true ∧ State.reset.config.wf = true := by
  decide
theorem witness_EveryStepKeepsTheInvariant : Inv beforeRounds ∧ ∃ t, step beforeRounds = .next t :=
  ⟨beforeRounds_inv, exists_next (by decide)⟩
theorem witness_TransactionsNeverStop : Inv beforeRounds ∧ beforeRounds.phase.active = true :=
  ⟨beforeRounds_inv, by decide⟩
theorem witness_BlockCommandsComplete :
    let s := inPhase .validate (request 1 [] testVec)
    s.phase = .validate ∧ s.q.wf = true ∧ s.q.keyLen = 16 ∧ s.q.dataLen = 8 := by decide
/-- With padding at the capacity, and aligned without. -/
theorem witness_EncryptCommandsComplete :
    (let s := { inPhase .validate (request 0x213 iv0 testVector1) with config := ⟨13⟩ }
     s.phase = .validate ∧ s.config.wf = true ∧ s.q.wf = true ∧ s.q.keyLen = 16 ∧
     s.q.dataLen.toNat ≤ s.config.maxMsgBytes ∧ s.q.ivLen = 8) ∧
    (let s := { inPhase .validate (request 0x103 [] testVec) with config := ⟨8⟩ }
     s.phase = .validate ∧ s.config.wf = true ∧ s.q.wf = true ∧ s.q.keyLen = 16 ∧
     s.q.dataLen.toNat ≤ s.config.maxMsgBytes ∧ s.q.dataLen.toNat % 8 = 0) := by decide
theorem witness_DecryptCommandsCompleteWithoutUnpadding :
    let s := inPhase .validate (request 0x314 iv0 testVec)
    s.phase = .validate ∧ s.config.wf = true ∧ s.q.wf = true ∧ s.q.keyLen = 16 ∧
    s.q.dataLen.toNat ≤ s.config.maxMsgBytes ∧ s.q.dataLen.toNat % 8 = 0 ∧ s.q.ivLen = 8 := by decide
set_option maxRecDepth 4096 in
/-- V-PAD's ciphertexts of "AAAAAAA" ++ 01, which unpads, and ++ 09, which does not; and V6's operands under CBC. -/
theorem witness_DecryptCommandsCompleteWithUnpadding :
    (let s := inPhase .validate (request 0x214 iv0 [0x6E, 0x34, 0x13, 0x4E, 0x97, 0xF0, 0xA1, 0xB6])
     s.phase = .validate ∧ s.config.wf = true ∧ s.q.wf = true ∧ s.q.keyLen = 16 ∧
     s.q.dataLen.toNat ≤ s.config.maxMsgBytes ∧ s.q.dataLen.toNat % 8 = 0 ∧ s.q.ivLen = 8 ∧
     ivOf true s.q = some ⟨0x69765F76, 0x616C7565⟩) ∧
    unpad (bytesOfBlocks (ecbDecrypt k0Words (blocksOf [0x6E, 0x34, 0x13, 0x4E, 0x97, 0xF0, 0xA1, 0xB6]))) =
      .ok (List.replicate 7 0x41) ∧
    unpad (bytesOfBlocks (ecbDecrypt k0Words (blocksOf [0xDB, 0xB9, 0xBE, 0xCE, 0x01, 0x1D, 0xFE, 0x17]))) =
      .error ⟨.badPadding, 9⟩ := by decide
set_option maxRecDepth 4096 in
/-- A request for each line of R244's table: V-PAD's two ciphertexts for those of UNPAD. -/
theorem witness_StepsReachTransact :
    (let s := { State.reset with req := some (request 0x213 iv0 testVector1) }
     s.phase = .idle ∧ s.req = some (request 0x213 iv0 testVector1) ∧ s.host = [] ∧
     (request 0x213 iv0 testVector1).wf = true ∧ s.config.wf = true) ∧
    (validate 1024 (request 5 [] [])).isSome = true ∧
    validate 1024 (request 1 [] testVec) = none ∧ isMessage .encipher = false ∧
    validate 1024 (request 3 [] []) = none ∧ pads (.encryptEcb false) = true ∧
    validate 1024 (request 0x104 [] []) = none ∧ pads (.decryptEcb true) = false ∧ unpads (.decryptEcb true) = false ∧
    unpads (.decryptEcb false) = true ∧
    transact 1024 (request 4 [] [0x6E, 0x34, 0x13, 0x4E, 0x97, 0xF0, 0xA1, 0xB6]) =
      some (okResponse (List.replicate 7 0x41)) ∧
    transact 1024 (request 4 [] [0xDB, 0xB9, 0xBE, 0xCE, 0x01, 0x1D, 0xFE, 0x17]) = some ⟨6, 9, 0, []⟩ := by decide
/-- Two engines that differ in every working register. -/
theorem witness_ResponseDependsOnlyOnTheRequest :
    let r := request 0x213 iv0 testVector1
    let s := { State.reset with req := some r }
    let s' := { s with q := r, y := 1, z := 2, sum := 3, ivw := ⟨4, 5⟩, outBuf := [(0, 6)], olen := 1 }
    s.phase = .idle ∧ s'.phase = .idle ∧ s.req = some r ∧ s'.req = some r ∧ s.host = [] ∧ s'.host = [] ∧
    r.wf = true ∧ s.config.wf = true ∧ s'.config = s.config := by decide
/-- V-IGN's words -/
theorem witness_UnreadFieldsHaveNoEffect :
    decode 0x1 = .instr .encipher ∧ decode 0xF1 = .instr .encipher ∧ readsIv .encipher = false := by decide
theorem witness_ErrorsCarryNoOutput :
    transact 1024 (request 1 [] testVec) = some (okResponse [0xDF, 0x53, 0x94, 0xFC, 0xF3, 0x57, 0xBF, 0xE2]) ∧
    transact 1024 (request 5 [] testVec) = some ⟨7, 5, 0, []⟩ := by decide
set_option maxRecDepth 4096 in
/-- One command for each line of R169's table: V-ENC1, V1, V-EMPTY, V-PAD. -/
theorem witness_OutputLengthOfEachCommand :
    1024 ≤ 2 ^ 32 - 9 ∧ (request 1 [] testVec).wf = true ∧ decode 0x1 = .instr .encipher ∧
    transact 1024 (request 1 [] testVec) = some (okResponse [0xDF, 0x53, 0x94, 0xFC, 0xF3, 0x57, 0xBF, 0xE2]) ∧
    decode 0x3 = .instr (.encryptEcb false) ∧ pads (.encryptEcb false) = true ∧
    transact 1024 (request 0x3 [] []) = some (okResponse [0xBF, 0xF0, 0xD8, 0xE2, 0x10, 0x94, 0x3E, 0x58]) ∧
    decode 0x104 = .instr (.decryptEcb true) ∧ transact 1024 (request 0x104 [] []) = some (okResponse []) ∧
    decode 0x4 = .instr (.decryptEcb false) ∧ unpads (.decryptEcb false) = true ∧
    transact 1024 (request 0x4 [] [0x45, 0x1E, 0xF7, 0x0C, 0x65, 0xE2, 0x45, 0x46]) = some (okResponse []) := by decide
/-- With padding at the capacity, CBC with an IV; and aligned without padding. -/
theorem witness_DecryptUndoesEncrypt :
    (let q := request 0 iv0 testVector1
     16 ≤ 2 ^ 32 - 9 ∧ q.wf = true ∧ q.keyLen = 16 ∧ q.ivLen = 8 ∧ q.dataLen.toNat + padLenOf q.dataLen.toNat ≤ 16) ∧
    (let q := request 0 [] testVec
     8 ≤ 2 ^ 32 - 9 ∧ q.wf = true ∧ q.keyLen = 16 ∧ q.dataLen.toNat % 8 = 0 ∧ q.dataLen.toNat ≤ 8) := by decide
/-- V3 -/
theorem witness_EqualBlocksEncryptEqually :
    let q := request 0x103 [] (List.replicate 16 0x30)
    decode q.cmd = .instr (.encryptEcb true) ∧
    transact 1024 q = some (okResponse [113, 181, 178, 30, 196, 40, 107, 136, 113, 181, 178, 30, 196, 40, 107, 136]) ∧
    8 * 1 + 8 ≤ (encryptInput true q.data).length ∧
    slice (encryptInput true q.data) (8 * 0) 8 = slice (encryptInput true q.data) (8 * 1) 8 := by decide
theorem witness_CbcChainsThePreviousCiphertext :
    ([⟨1, 2⟩, ⟨3, 4⟩] : List Block)[0]? = some ⟨1, 2⟩ ∧ ([⟨1, 2⟩, ⟨3, 4⟩] : List Block)[1]? = some ⟨3, 4⟩ := by decide
/-- V-CBCIV's two equal blocks -/
theorem witness_CbcEqualBlocksDifferByTheirChain :
    let p : Block := ⟨0x30303030, 0x30303030⟩
    let iv : Block := ⟨0x69765F76, 0x616C7565⟩
    [p, p][0]? = some p ∧ [p, p][1]? = some p ∧
    (if (0 : Nat) = 0 then some iv else (cbcEncrypt k0Words iv [p, p])[0 - 1]?) = some iv ∧
    (if (1 : Nat) = 0 then some iv else (cbcEncrypt k0Words iv [p, p])[1 - 1]?) = some ⟨0xCBBEE9BD, 0x7A6C267A⟩ := by decide
/-- V-CBC0-4's request, and two requests that answer. -/
theorem witness_ZeroIvIsNoIv :
    let q := request 0x313 (List.replicate 8 0) testVec
    q.ivLen = 8 ∧ q.iv = List.replicate 8 0 ∧
    (transact 1024 { q with cmd := encode (.encryptCbc true false) }).isSome = true ∧
    (transact 1024 { q with cmd := encode (.encryptEcb true) }).isSome = true := by decide

end Sys2Proof.Tests
end

/-! SUPPORT. The six commands read alike, phase by phase: exec as one function of the command's properties (R122, R123,
R176 to R180), and what it can answer in each phase, said once. -/

namespace Sys2Proof.Machine

/-- SUM as LOAD and FETCH set it, before the first round (R114, R117). -/
def startSum (i : Instr) : Word := if enciphers i then 0 else limit

/-- Where a message command goes after its last block (R176, R178). -/
def afterBlocks (i : Instr) : Phase := if unpads i then .unpad else .finish

/-- IVW as LOAD leaves it: Q's IV or zero under CBC, untouched under ECB (R146, R176). -/
def loadIv (i : Instr) (s : State) : Option Block := if chains i then ivOf (readsIv i) s.q else some s.ivw

/-- FETCH once the block is formed: the controller's first part (R144, R145, R177). -/
def fetchBlock (i : Instr) (b : Block) (s : State) : State :=
  s.fetched (if chains i && enciphers i then xorBlock b s.ivw else b)
    (if chains i && !enciphers i then b else s.tmp) (startSum i)

/-- The controller's last part in STORE (R144, R145, R149, R178). -/
def chainOutput (i : Instr) (s : State) : State :=
  s.chained (if chains i && !enciphers i then xorBlock ⟨s.y, s.z⟩ s.ivw else ⟨s.y, s.z⟩)
    (if chains i then if enciphers i then ⟨s.y, s.z⟩ else s.tmp else s.ivw)

/-- The block FETCH forms at block index `bi` (R164, R177). -/
def blockAt (i : Instr) (q : Request) (padlen bi : Nat) : Option Block :=
  (formBlock (pads i) q padlen bi).bind blockOfBytes

/-- One round in the command's direction (R123). -/
def cipherRound (enc : Bool) (k : Key) (r : RoundRegs) : RoundRegs := if enc then encRound k r else decRound k r

/-- A command's engine step by the command's properties instead of by its constructor. -/
def phaseStep (i : Instr) (s : State) : Out :=
  match s.phase with
  | .validate => validateStep (operandError s.config.maxMsgBytes s.q i) s
  | .load =>
    if isMessage i then
      if chains i then cbcLoad (readsIv i) (pads i) (afterBlocks i) s else ecbLoad (pads i) (afterBlocks i) s
    else blockLoad (startSum i) s
  | .fetch => if isMessage i then fetchStep (pads i) (fetchBlock i) s else .fault .phaseNotOfCommand
  | .round => if enciphers i then encRoundStep s else decRoundStep s
  | .store => if isMessage i then messageStore (chainOutput i) (afterBlocks i) s else blockStore s
  | .unpad => if unpads i then unpadStep s else .fault .phaseNotOfCommand
  | .finish => finishStep s
  | .idle => .fault .phaseNotOfCommand
  | .respond => .fault .phaseNotOfCommand

/-- `phaseStep` is exec: the one place where the commands' own definitions are opened. -/
theorem exec_eq_phaseStep (i : Instr) (s : State) : exec i s = phaseStep i s := by
  unfold phaseStep
  cases i with
  | encipher => simp only [exec, execEncipher, enciphers, if_true]; cases s.phase <;> rfl
  | decipher => simp only [exec, execDecipher]; cases s.phase <;> rfl
  | encryptEcb skip => simp only [exec, execEncryptEcb, enciphers, if_true]; cases s.phase <;> rfl
  | encryptCbc skip ivp => simp only [exec, execEncryptCbc, enciphers, if_true]; cases s.phase <;> rfl
  | decryptEcb skip => simp only [exec, execDecryptEcb]; cases s.phase <;> cases skip <;> rfl
  | decryptCbc skip ivp => simp only [exec, execDecryptCbc]; cases s.phase <;> cases skip <;> rfl

section PhaseEquations

variable {i : Instr} {s t : State}

theorem exec_validate (hp : s.phase = .validate) :
    exec i s = validateStep (operandError s.config.maxMsgBytes s.q i) s := by
  simp only [exec_eq_phaseStep, phaseStep, hp]

theorem exec_load_block (hp : s.phase = .load) (hi : isMessage i = false) : exec i s = blockLoad (startSum i) s := by
  simp [exec_eq_phaseStep, phaseStep, hp, hi]

theorem exec_fetch (hp : s.phase = .fetch) (hi : isMessage i = true) :
    exec i s = fetchStep (pads i) (fetchBlock i) s := by
  simp [exec_eq_phaseStep, phaseStep, hp, hi]

theorem exec_store_block (hp : s.phase = .store) (hi : isMessage i = false) : exec i s = blockStore s := by
  simp [exec_eq_phaseStep, phaseStep, hp, hi]

theorem exec_store_message (hp : s.phase = .store) (hi : isMessage i = true) :
    exec i s = messageStore (chainOutput i) (afterBlocks i) s := by
  simp [exec_eq_phaseStep, phaseStep, hp, hi]

theorem exec_unpad (hp : s.phase = .unpad) (hi : unpads i = true) : exec i s = unpadStep s := by
  simp [exec_eq_phaseStep, phaseStep, hp, hi]

theorem exec_finish (hp : s.phase = .finish) : exec i s = finishStep s := by
  simp only [exec_eq_phaseStep, phaseStep, hp]

theorem exec_outside_phases (h : hasPhase i s.phase = false) : exec i s = .fault .phaseNotOfCommand := by
  rw [exec_eq_phaseStep]
  unfold phaseStep
  cases hp : s.phase <;> simp_all [hasPhase]

/-- A command answers next only in a phase of its own. -/
theorem hasPhase_of_exec_next (h : exec i s = .next t) : hasPhase i s.phase = true := by
  by_contra hn
  rw [exec_outside_phases (by simpa using hn)] at h
  cases h

theorem exec_load_block_next (hp : s.phase = .load) (hi : isMessage i = false) :
    exec i s = .next t ↔
      ∃ k bytes b, keyOfBytes s.q.key = some k ∧ memRead s.q 0 8 = some bytes ∧ blockOfBytes bytes = some b ∧
        t = { s with
          k := k, y := b.v0, z := b.v1, sum := startSum i, bi := 0, nb := 1, olen := 0, phase := .round } := by
  rw [exec_load_block hp hi, blockLoad_next]

theorem exec_load_message_next (hp : s.phase = .load) (hi : isMessage i = true) :
    exec i s = .next t ↔
      ∃ k iv, keyOfBytes s.q.key = some k ∧ loadIv i s = some iv ∧
        t = loadMessage (pads i) (afterBlocks i) k iv s := by
  have heq : exec i s =
      if chains i then cbcLoad (readsIv i) (pads i) (afterBlocks i) s else ecbLoad (pads i) (afterBlocks i) s := by
    simp [exec_eq_phaseStep, phaseStep, hp, hi]
  cases hc : chains i with
  | true => simp [heq, hc, loadIv, cbcLoad_next]
  | false => simp [heq, hc, loadIv, ecbLoad_next]

theorem exec_fetch_next (hp : s.phase = .fetch) (hi : isMessage i = true) :
    exec i s = .next t ↔
      ∃ b, blockAt i s.q s.padlen.toNat s.bi.toNat = some b ∧ t = fetchBlock i b s := by
  rw [exec_fetch hp hi, fetchStep_next]
  simp only [blockAt, Option.bind_eq_some_iff]
  constructor
  · rintro ⟨bytes, b, hf, hb, rfl⟩
    exact ⟨b, ⟨bytes, hf, hb⟩, rfl⟩
  · rintro ⟨b, ⟨bytes, hf, hb⟩, rfl⟩
    exact ⟨bytes, b, hf, hb, rfl⟩

theorem exec_store_message_next (hp : s.phase = .store) (hi : isMessage i = true) :
    exec i s = .next t ↔
      8 * s.bi.toNat + 8 ≤ s.config.maxMsgBytes + 8 ∧
        t = (chainOutput i s).stored
          (Memory.writeBytes s.outBuf (8 * s.bi.toNat) (bytesOfBlock ⟨(chainOutput i s).y, (chainOutput i s).z⟩))
          (s.olen + 8) (s.bi + 1) (if (s.bi + 1).toNat < s.nb.toNat then .fetch else afterBlocks i) := by
  rw [exec_store_message hp hi, messageStore, storeOutput_next]
  rfl

theorem exec_store_block_next (hp : s.phase = .store) (hi : isMessage i = false) :
    exec i s = .next t ↔
      t = s.stored (Memory.writeBytes s.outBuf 0 (bytesOfBlock ⟨s.y, s.z⟩)) 8 1 .finish := by
  rw [exec_store_block hp hi, blockStore_eq, Host.Outcome.next.injEq, eq_comm]
  rfl

theorem exec_unpad_next (hp : s.phase = .unpad) :
    exec i s = .next t ↔ unpads i = true ∧
      ((s.olen = 0 ∧ t = errorState ⟨.badPadding, noByteInfo⟩ s) ∨
       (s.olen ≠ 0 ∧ ∃ p, Memory.read s.outBuf (s.olen.toNat - 1) = some p ∧
        ((∃ e, padError p s.olen.toNat = some e ∧ t = errorState e s) ∨
          (padError p s.olen.toNat = none ∧ t = s.truncated (s.olen - p.setWidth 32))))) := by
  cases hu : unpads i with
  | false => simp [exec_outside_phases (i := i) (s := s) (by simp [hasPhase, hp, hu])]
  | true =>
    have hraise : ∀ e, raise e s = .next t ↔ t = errorState e s := fun e => by
      rw [raise_eq, Host.Outcome.next.injEq, eq_comm]; rfl
    rw [exec_unpad hp hu, unpadStep_next]
    simp only [hraise, true_and]
    rfl

theorem exec_finish_next (hp : s.phase = .finish) :
    exec i s = .next t ↔
      ∃ out, Memory.readBytes s.outBuf 0 s.olen.toNat = some out ∧
        t = s.succeeded.responding ⟨0, 0, s.olen, out⟩ := by
  rw [exec_finish hp, finishStep_next]
  rfl

theorem exec_validate_next (hp : s.phase = .validate) :
    exec i s = .next t ↔
      (operandError s.config.maxMsgBytes s.q i = none ∧ t = s.toPhase .load) ∨
      ∃ e, operandError s.config.maxMsgBytes s.q i = some e ∧ t = errorState e s := by
  rw [exec_validate hp]
  cases operandError s.config.maxMsgBytes s.q i with
  | none => simp [validateStep, eq_comm]
  | some e =>
    rw [validateStep_some, raise_eq, Host.Outcome.next.injEq, eq_comm]
    simp [errorState]

end PhaseEquations

/-! ### Rounds: SUM counts them (R114, R117) -/

/-- SUM after one round. -/
def sumAfter (enc : Bool) (w : Word) : Word := if enc then w + delta else w - delta

theorem sumWithRoundsLeft_enc : ∀ n < 32,
    sumWithRoundsLeft true (n + 1) + delta = sumWithRoundsLeft true n ∧ (sumWithRoundsLeft true n = limit ↔ n = 0) := by
  decide

theorem sumWithRoundsLeft_dec : ∀ n < 32,
    sumWithRoundsLeft false (n + 1) - delta = sumWithRoundsLeft false n ∧ (sumWithRoundsLeft false n = 0 ↔ n = 0) := by
  decide

theorem sumAfter_sumWithRoundsLeft (enc : Bool) {n : Nat} (hn : n < 32) :
    sumAfter enc (sumWithRoundsLeft enc (n + 1)) = sumWithRoundsLeft enc n := by
  cases enc
  · exact (sumWithRoundsLeft_dec n hn).1
  · exact (sumWithRoundsLeft_enc n hn).1

theorem sumWithRoundsLeft_eq_last (enc : Bool) {n : Nat} (hn : n < 32) :
    sumWithRoundsLeft enc n = sumWithRoundsLeft enc 0 ↔ n = 0 := by
  cases enc
  · exact (sumWithRoundsLeft_dec n hn).2
  · exact (sumWithRoundsLeft_enc n hn).2

theorem startSum_eq (i : Instr) : startSum i = sumWithRoundsLeft (enciphers i) 32 := by
  unfold startSum
  cases enciphers i <;> decide

/-- The state after the ROUND step of a command (R123). -/
def roundState (enc : Bool) (s : State) : State :=
  { s with
    y := (cipherRound enc s.k ⟨s.y, s.z, s.sum⟩).y
    z := (cipherRound enc s.k ⟨s.y, s.z, s.sum⟩).z
    sum := sumAfter enc s.sum
    phase := if sumAfter enc s.sum = sumWithRoundsLeft enc 0 then .store else .round }

theorem exec_round {i : Instr} {s : State} (hp : s.phase = .round) :
    exec i s = .next (roundState (enciphers i) s) := by
  have heq : exec i s = if enciphers i then encRoundStep s else decRoundStep s := by
    simp only [exec_eq_phaseStep, phaseStep, hp]
  cases he : enciphers i with
  | true => rw [heq, he, if_pos rfl, encRoundStep_eq, hp]; rfl
  | false => rw [heq, he, if_neg Bool.false_ne_true, decRoundStep_eq, hp]; rfl

theorem exec_round_next {i : Instr} {s t : State} (hp : s.phase = .round) :
    exec i s = .next t ↔ t = roundState (enciphers i) s := by
  rw [exec_round hp, Host.Outcome.next.injEq, eq_comm]

/-! ### Every next state of exec -/

/-- What an engine step of a command can answer, one constructor per rule. -/
inductive ExecNext (i : Instr) (s : State) : State → Prop
  /-- VALIDATE finds no error (R203). -/
  | validated (hp : s.phase = .validate) (h : operandError s.config.maxMsgBytes s.q i = none) :
      ExecNext i s (s.toPhase .load)
  /-- VALIDATE raises the error found (R203, R205). -/
  | rejected (hp : s.phase = .validate) (e : Error) (h : operandError s.config.maxMsgBytes s.q i = some e) :
      ExecNext i s (errorState e s)
  /-- LOAD of a block command (R122). -/
  | loadedBlock (hp : s.phase = .load) (hi : isMessage i = false) (k : Key) (bytes : List Byte) (b : Block)
      (hk : keyOfBytes s.q.key = some k) (hm : memRead s.q 0 8 = some bytes) (hb : blockOfBytes bytes = some b) :
      ExecNext i s (s.loadedBlock k b (startSum i))
  /-- LOAD of a message command (R176). -/
  | loadedMessage (hp : s.phase = .load) (hi : isMessage i = true) (k : Key) (iv : Block)
      (hk : keyOfBytes s.q.key = some k) (hiv : loadIv i s = some iv) :
      ExecNext i s (loadMessage (pads i) (afterBlocks i) k iv s)
  /-- FETCH (R177). -/
  | fetched (hp : s.phase = .fetch) (hi : isMessage i = true) (b : Block)
      (hb : blockAt i s.q s.padlen.toNat s.bi.toNat = some b) : ExecNext i s (fetchBlock i b s)
  /-- One round (R123). -/
  | rounded (hp : s.phase = .round) : ExecNext i s (roundState (enciphers i) s)
  /-- STORE of a block command (R122). -/
  | storedBlock (hp : s.phase = .store) (hi : isMessage i = false) :
      ExecNext i s (s.stored (Memory.writeBytes s.outBuf 0 (bytesOfBlock ⟨s.y, s.z⟩)) 8 1 .finish)
  /-- STORE of a message command (R178). -/
  | storedMessage (hp : s.phase = .store) (hi : isMessage i = true)
      (hb : 8 * s.bi.toNat + 8 ≤ s.config.maxMsgBytes + 8) :
      ExecNext i s ((chainOutput i s).stored
        (Memory.writeBytes s.outBuf (8 * s.bi.toNat) (bytesOfBlock ⟨(chainOutput i s).y, (chainOutput i s).z⟩))
        (s.olen + 8) (s.bi + 1) (if (s.bi + 1).toNat < s.nb.toNat then .fetch else afterBlocks i))
  /-- UNPAD of an empty output (R167). -/
  | unpadEmpty (hp : s.phase = .unpad) (hi : unpads i = true) (h0 : s.olen = 0) :
      ExecNext i s (errorState ⟨.badPadding, noByteInfo⟩ s)
  /-- UNPAD on a last byte that is no pad length (R167). -/
  | unpadBad (hp : s.phase = .unpad) (hi : unpads i = true) (h0 : s.olen ≠ 0) (p : Byte)
      (hr : Memory.read s.outBuf (s.olen.toNat - 1) = some p) (e : Error) (he : padError p s.olen.toNat = some e) :
      ExecNext i s (errorState e s)
  /-- UNPAD on a last byte that is one (R167). -/
  | unpadded (hp : s.phase = .unpad) (hi : unpads i = true) (h0 : s.olen ≠ 0) (p : Byte)
      (hr : Memory.read s.outBuf (s.olen.toNat - 1) = some p) (he : padError p s.olen.toNat = none) :
      ExecNext i s (s.truncated (s.olen - p.setWidth 32))
  /-- FINISH (R180). -/
  | finished (hp : s.phase = .finish) (out : List Byte)
      (hr : Memory.readBytes s.outBuf 0 s.olen.toNat = some out) :
      ExecNext i s (s.succeeded.responding ⟨0, 0, s.olen, out⟩)

theorem execNext_of_exec {i : Instr} {s t : State} (h : exec i s = .next t) : ExecNext i s t := by
  cases hp : s.phase with
  | idle | respond => simpa [hasPhase, hp] using hasPhase_of_exec_next h
  | validate =>
    obtain ⟨hv, rfl⟩ | ⟨e, he, rfl⟩ := (exec_validate_next hp).mp h
    · exact .validated hp hv
    · exact .rejected hp e he
  | load =>
    cases hi : isMessage i with
    | false =>
      obtain ⟨k, bytes, b, hk, hm, hb, rfl⟩ := (exec_load_block_next hp hi).mp h
      exact .loadedBlock hp hi k bytes b hk hm hb
    | true =>
      obtain ⟨k, iv, hk, hiv, rfl⟩ := (exec_load_message_next hp hi).mp h
      exact .loadedMessage hp hi k iv hk hiv
  | fetch =>
    have hi : isMessage i = true := by simpa [hasPhase, hp] using hasPhase_of_exec_next h
    obtain ⟨b, hb, rfl⟩ := (exec_fetch_next hp hi).mp h
    exact .fetched hp hi b hb
  | round =>
    obtain rfl := (exec_round_next hp).mp h
    exact .rounded hp
  | store =>
    cases hi : isMessage i with
    | false =>
      obtain rfl := (exec_store_block_next hp hi).mp h
      exact .storedBlock hp hi
    | true =>
      obtain ⟨hb, rfl⟩ := (exec_store_message_next hp hi).mp h
      exact .storedMessage hp hi hb
  | unpad =>
    obtain ⟨hi, ⟨h0, rfl⟩ | ⟨h0, p, hr, ⟨e, he, rfl⟩ | ⟨he, rfl⟩⟩⟩ := (exec_unpad_next hp).mp h
    · exact .unpadEmpty hp hi h0
    · exact .unpadBad hp hi h0 p hr e he
    · exact .unpadded hp hi h0 p hr he
  | finish =>
    obtain ⟨out, hr, rfl⟩ := (exec_finish_next hp).mp h
    exact .finished hp out hr

theorem exec_of_execNext {i : Instr} {s t : State} (h : ExecNext i s t) : exec i s = .next t := by
  cases h with
  | validated hp h => exact (exec_validate_next hp).mpr (.inl ⟨h, rfl⟩)
  | rejected hp e h => exact (exec_validate_next hp).mpr (.inr ⟨e, h, rfl⟩)
  | loadedBlock hp hi k bytes b hk hm hb => exact (exec_load_block_next hp hi).mpr ⟨k, bytes, b, hk, hm, hb, rfl⟩
  | loadedMessage hp hi k iv hk hiv => exact (exec_load_message_next hp hi).mpr ⟨k, iv, hk, hiv, rfl⟩
  | fetched hp hi b hb => exact (exec_fetch_next hp hi).mpr ⟨b, hb, rfl⟩
  | rounded hp => exact exec_round hp
  | storedBlock hp hi => exact (exec_store_block_next hp hi).mpr rfl
  | storedMessage hp hi hb => exact (exec_store_message_next hp hi).mpr ⟨hb, rfl⟩
  | unpadEmpty hp hi h0 => exact (exec_unpad_next hp).mpr ⟨hi, .inl ⟨h0, rfl⟩⟩
  | unpadBad hp hi h0 p hr e he => exact (exec_unpad_next hp).mpr ⟨hi, .inr ⟨h0, p, hr, .inl ⟨e, he, rfl⟩⟩⟩
  | unpadded hp hi h0 p hr he => exact (exec_unpad_next hp).mpr ⟨hi, .inr ⟨h0, p, hr, .inr ⟨he, rfl⟩⟩⟩
  | finished hp out hr => exact (exec_finish_next hp).mpr ⟨out, hr, rfl⟩

end Sys2Proof.Machine

/-! SUPPORT. What the checks of VALIDATE ensure of a request (R203), and the blocks FETCH forms from it (R164). -/

namespace Sys2Proof.Machine

theorem decode_encode (i : Instr) : decode (encode i) = .instr i := by
  cases i with
  | encipher => rfl
  | decipher => rfl
  | encryptEcb skip => cases skip <;> rfl
  | encryptCbc skip ivp => cases skip <;> cases ivp <;> rfl
  | decryptEcb skip => cases skip <;> rfl
  | decryptCbc skip ivp => cases skip <;> cases ivp <;> rfl

theorem Request.wf_iff {r : Request} :
    r.wf = true ↔
      r.key.length = r.keyLen.toNat ∧ r.iv.length = r.ivLen.toNat ∧ r.data.length = r.dataLen.toNat := by
  simp [Request.wf]

/-- OUT_BUF's addresses are 32-bit words (R7). -/
theorem capacity_lt_of_wf {c : Config} (h : c.wf = true) : c.maxMsgBytes + 8 < 2 ^ 32 := by
  simp only [Config.wf, decide_eq_true_eq] at h
  omega

theorem blockCommandError_eq_none {q : Request} : blockCommandError q = none ↔ q.keyLen = 16 ∧ q.dataLen = 8 := by
  unfold blockCommandError
  split <;> [skip; split] <;> simp_all

theorem messageError_eq_none {cap : Nat} {iv aligned : Bool} {q : Request} :
    messageError cap iv aligned q = none ↔
      q.keyLen = 16 ∧ q.dataLen.toNat ≤ cap ∧ (iv = true → q.ivLen = 8) ∧
        (aligned = true → q.dataLen.toNat % 8 = 0) := by
  unfold messageError
  split <;> [skip; split <;> [skip; split <;> [skip; split]]] <;> simp_all

theorem operandError_message {i : Instr} (hi : isMessage i = true) (cap : Nat) (q : Request) :
    operandError cap q i = messageError cap (readsIv i) (needsAligned i) q := by
  cases i with
  | encipher | decipher => cases hi
  | encryptEcb | encryptCbc | decryptEcb | decryptCbc => rfl

theorem operandError_block {i : Instr} (hi : isMessage i = false) (cap : Nat) (q : Request) :
    operandError cap q i = blockCommandError q := by
  cases i with
  | encipher | decipher => rfl
  | encryptEcb | encryptCbc | decryptEcb | decryptCbc => cases hi

/-- What R203's checks leave of a request for a command. -/
structure Accepted (cap : Nat) (q : Request) (i : Instr) : Prop where
  keyLen : q.keyLen = 16
  block : isMessage i = false → q.dataLen = 8
  capacity : isMessage i = true → q.dataLen.toNat ≤ cap
  ivLen : readsIv i = true → q.ivLen = 8
  aligned : needsAligned i = true → q.dataLen.toNat % 8 = 0

theorem isMessage_of_pads {i : Instr} (h : pads i = true) : isMessage i = true := by
  cases i <;> simp_all [isMessage, pads]

theorem isMessage_of_unpads {i : Instr} (h : unpads i = true) : isMessage i = true := by
  cases i <;> simp_all [isMessage, unpads]

theorem isMessage_of_readsIv {i : Instr} (h : readsIv i = true) : isMessage i = true := by
  cases i <;> simp_all [isMessage, readsIv]

theorem isMessage_of_needsAligned {i : Instr} (h : needsAligned i = true) : isMessage i = true := by
  cases i <;> simp_all [isMessage, needsAligned]

theorem pads_eq_not_needsAligned {i : Instr} (hi : isMessage i = true) : pads i = !needsAligned i := by
  cases i <;> simp_all [isMessage, pads, needsAligned]

theorem operandError_eq_none {cap : Nat} {q : Request} {i : Instr} :
    operandError cap q i = none ↔ Accepted cap q i := by
  cases hi : isMessage i with
  | true =>
    rw [operandError_message hi, messageError_eq_none]
    constructor
    · rintro ⟨hk, hc, hv, ha⟩
      exact ⟨hk, by simp [hi], fun _ => hc, hv, ha⟩
    · rintro ⟨hk, -, hc, hv, ha⟩
      exact ⟨hk, hc hi, hv, ha⟩
  | false =>
    rw [operandError_block hi, blockCommandError_eq_none]
    constructor
    · rintro ⟨hk, hd⟩
      exact ⟨hk, fun _ => hd, by simp [hi], fun h => by simp [isMessage_of_readsIv h] at hi,
        fun h => by simp [isMessage_of_needsAligned h] at hi⟩
    · rintro ⟨hk, hd, -, -, -⟩
      exact ⟨hk, hd hi⟩

theorem Accepted.key {cap : Nat} {q : Request} {i : Instr} (h : Accepted cap q i) (hq : q.wf = true) :
    ∃ k, keyOfBytes q.key = some k :=
  keyOfBytes_eq_some (by rw [(Request.wf_iff.mp hq).1, h.keyLen]; rfl)

theorem Accepted.loadIv {cap : Nat} {s : State} {i : Instr} (h : Accepted cap s.q i) (hq : s.q.wf = true) :
    ∃ iv, loadIv i s = some iv := by
  unfold Machine.loadIv ivOf
  split
  · split
    · rename_i hr
      exact blockOfBytes_eq_some (by rw [(Request.wf_iff.mp hq).2.1, h.ivLen hr]; rfl)
    · exact ⟨_, rfl⟩
  · exact ⟨_, rfl⟩

/-- A block command's eight bytes. -/
theorem Accepted.blockData {cap : Nat} {q : Request} {i : Instr} (h : Accepted cap q i) (hq : q.wf = true)
    (hi : isMessage i = false) : ∃ b, memRead q 0 8 = some q.data ∧ blockOfBytes q.data = some b := by
  have hn : q.dataLen.toNat = 8 := by rw [h.block hi]; rfl
  have hd : q.data.length = 8 := (Request.wf_iff.mp hq).2.2.trans hn
  obtain ⟨b, hb⟩ := blockOfBytes_eq_some hd
  refine ⟨b, ?_, hb⟩
  rw [memRead, if_pos (by omega), slice, List.drop_zero, List.take_of_length_le hd.le]

/-! ### Blocks of the input -/

/-- The bytes a message command works on: the padded message, or the message (R162, R170, R173). -/
def inputOf (i : Instr) (data : List Byte) : List Byte := if pads i then padMessage data else data

theorem slice_append {s u : List Byte} {a n : Nat} (h : a + n ≤ s.length) : slice (s ++ u) a n = slice s a n := by
  unfold slice
  rw [List.drop_append_of_le_length (by omega), List.take_append_of_le_length (by simp; omega)]

theorem padMessage_length (m : List Byte) : (padMessage m).length = 8 * (m.length / 8 + 1) := by
  have := padLenOf_add m.length
  simp only [padMessage, List.length_append, padBytes_length]
  omega

/-- The last block of a padded message: the bytes left over, then the pad (R164). -/
theorem slice_padMessage_last (m : List Byte) :
    slice (padMessage m) (8 * (m.length / 8)) 8 =
      slice m (8 * (m.length / 8)) (m.length % 8) ++ padBytes (padLenOf m.length) := by
  have hlen := padMessage_length m
  have hdrop : (m.drop (8 * (m.length / 8))).take (m.length % 8) = m.drop (8 * (m.length / 8)) :=
    List.take_of_length_le (by simp; omega)
  unfold slice
  rw [List.take_of_length_le (by rw [List.length_drop, hlen]; omega), hdrop, padMessage,
    List.drop_append_of_le_length (by omega)]

theorem formBlock_whole {q : Request} {bi : Nat} (pad : Bool) (p : Nat) (h : 8 * bi + 8 ≤ q.dataLen.toNat) :
    formBlock pad q p bi = some (slice q.data (8 * bi) 8) := by
  rw [formBlock, if_pos (.inl h), memRead, if_pos ⟨le_rfl, h⟩]

/-- The padded last block (R164). -/
theorem formBlock_last {q : Request} (hq : q.data.length = q.dataLen.toNat) :
    formBlock true q (padLenOf q.dataLen.toNat) (q.dataLen.toNat / 8) =
      some (slice (padMessage q.data) (8 * (q.dataLen.toNat / 8)) 8) := by
  rw [← hq, slice_padMessage_last, formBlock, if_neg (by simp; omega), memRead, ← hq, if_pos (by omega)]
  rfl

theorem blocksFor_message {i : Instr} (hi : isMessage i = true) (n : Nat) : blocksFor n i = blockCount (pads i) n := by
  cases i with
  | encipher | decipher => cases hi
  | encryptEcb | encryptCbc | decryptEcb | decryptCbc => rfl

theorem blocksFor_block {i : Instr} (hi : isMessage i = false) (n : Nat) : blocksFor n i = 1 := by
  cases i with
  | encipher | decipher => rfl
  | encryptEcb | encryptCbc | decryptEcb | decryptCbc => cases hi

section

variable {cap : Nat} {q : Request} {i : Instr}

/-- Every block of an accepted request has its place in OUT_BUF (R50, R55). -/
theorem Accepted.blocks_fit (h : Accepted cap q i) : 8 * blocksFor q.dataLen.toNat i ≤ cap + 8 := by
  cases hi : isMessage i with
  | true =>
    have := h.capacity hi
    rw [blocksFor_message hi, blockCount]
    split <;> omega
  | false =>
    rw [blocksFor_block hi]
    omega

theorem Accepted.aligned_of_not_pads (h : Accepted cap q i) (hi : isMessage i = true) (hpad : pads i = false) :
    q.dataLen.toNat % 8 = 0 :=
  h.aligned (by simpa [hpad] using pads_eq_not_needsAligned hi)

theorem inputOf_length (h : Accepted cap q i) (hq : q.wf = true) (hi : isMessage i = true) :
    (inputOf i q.data).length = 8 * blocksFor q.dataLen.toNat i := by
  have hd := (Request.wf_iff.mp hq).2.2
  rw [blocksFor_message hi, inputOf, blockCount]
  cases hpad : pads i with
  | true => simp [padMessage_length, hd]
  | false =>
    have := h.aligned_of_not_pads hi hpad
    simp only [Bool.false_eq_true, if_false, hd]
    omega

/-- FETCH forms the blocks of the input in order (R164). -/
theorem formBlock_inputOf (h : Accepted cap q i) (hq : q.wf = true) (hi : isMessage i = true) {padlen bi : Nat}
    (hpad : pads i = true → padlen = padLenOf q.dataLen.toNat) (hbi : bi < blocksFor q.dataLen.toNat i) :
    formBlock (pads i) q padlen bi = some (slice (inputOf i q.data) (8 * bi) 8) := by
  have hd := (Request.wf_iff.mp hq).2.2
  rw [blocksFor_message hi, blockCount] at hbi
  unfold inputOf
  cases hp : pads i with
  | true =>
    simp only [hp, if_true] at hbi ⊢
    by_cases hw : 8 * bi + 8 ≤ q.dataLen.toNat
    · rw [formBlock_whole _ _ hw, padMessage, slice_append (by omega)]
    · obtain rfl : bi = q.dataLen.toNat / 8 := by omega
      rw [hpad hp, formBlock_last hd]
  | false =>
    have := h.aligned_of_not_pads hi hp
    simp only [hp, Bool.false_eq_true, if_false] at hbi ⊢
    exact formBlock_whole _ _ (by omega)

theorem blockAt_inputOf (h : Accepted cap q i) (hq : q.wf = true) (hi : isMessage i = true) {padlen bi : Nat}
    (hpad : pads i = true → padlen = padLenOf q.dataLen.toNat) (hbi : bi < blocksFor q.dataLen.toNat i) :
    blockAt i q padlen bi = blockOfBytes (slice (inputOf i q.data) (8 * bi) 8) := by
  rw [blockAt, formBlock_inputOf h hq hi hpad hbi, Option.bind_some]

theorem exists_blockAt (h : Accepted cap q i) (hq : q.wf = true) (hi : isMessage i = true) {padlen bi : Nat}
    (hpad : pads i = true → padlen = padLenOf q.dataLen.toNat) (hbi : bi < blocksFor q.dataLen.toNat i) :
    ∃ b, blockAt i q padlen bi = some b := by
  rw [blockAt_inputOf h hq hi hpad hbi]
  have := inputOf_length h hq hi
  exact blockOfBytes_eq_some (slice_length (by omega))

end

section

variable {i : Instr} {s : State} {done : Phase} {k : Key} {iv : Block}

theorem loadMessage_padlen (hp : pads i = true) :
    (loadMessage (pads i) done k iv s).padlen.toNat = padLenOf s.q.dataLen.toNat := by
  have := (padLenOf_bounds s.q.dataLen.toNat).2
  simp only [loadMessage, State.loadedMessage_padlen, hp, if_true, BitVec.toNat_ofNat]
  omega

theorem loadMessage_nb (hi : isMessage i = true) :
    (loadMessage (pads i) done k iv s).nb.toNat = blocksFor s.q.dataLen.toNat i := by
  rw [blocksFor_message hi]
  exact blockCount_toNat _ _

end

end Sys2Proof.Machine

/-! SUPPORT. Frames of exec, and the obligations that say in which phases a command steps, what it writes there and where
it stops (R25 to R31, R41, R51, R52). -/

namespace Sys2Proof.Machine

/-- What no step of a command writes: Q, REQ, the parameter and the host's lists (R30, R35, R7). -/
structure SameRequest (s t : State) : Prop where
  q : t.q = s.q
  req : t.req = s.req
  config : t.config = s.config
  host : t.host = s.host
  taken : t.taken = s.taken

theorem ExecNext.sameRequest {i : Instr} {s t : State} (h : ExecNext i s t) : SameRequest s t := by
  cases h <;> constructor <;> simp [errorState, loadMessage, fetchBlock, roundState, chainOutput]

theorem afterBlocks_cases (i : Instr) : afterBlocks i = .unpad ∨ afterBlocks i = .finish := by
  unfold afterBlocks
  split <;> simp

/-- Settles O37: exec has an arm for each of the command's own phases and the fault in every other. -/
theorem commandsStopOutsideTheirPhases : Obligations.CommandsStopOutsideTheirPhases :=
  fun _ _ h => exec_outside_phases h

/-- Settles O36: read off each next state of exec. -/
theorem commandsWriteOnlyTheirRegisters : Obligations.CommandsWriteOnlyTheirRegisters := by
  intro i s t h
  have hn := execNext_of_exec h
  obtain ⟨hq, hreq, hconfig, hhost, htaken⟩ := hn.sameRequest
  refine ⟨hq, hreq, hconfig, hhost, htaken, ?_⟩
  cases hn <;> simp_all [errorState, loadMessage, fetchBlock, roundState, chainOutput]

/-- The phases exec leads to, from each phase. -/
theorem ExecNext.phase_follows {i : Instr} {s t : State} (h : ExecNext i s t) :
    match s.phase with
    | .idle => False
    | .validate => t.phase = .load ∨ t.phase = .respond
    | .load => t.phase = .round ∨ t.phase = .fetch ∨ t.phase = .unpad ∨ t.phase = .finish
    | .fetch => t.phase = .round
    | .round => t.phase = .round ∨ t.phase = .store
    | .store => t.phase = .fetch ∨ t.phase = .unpad ∨ t.phase = .finish
    | .unpad => t.phase = .finish ∨ t.phase = .respond
    | .finish => t.phase = .respond
    | .respond => False := by
  have hafter := afterBlocks_cases i
  cases h with
  | loadedMessage hp | rounded hp | storedMessage hp =>
    rw [hp]
    simp only [loadMessage, roundState, State.loadedMessage_phase, State.stored_phase]
    split <;> simp [hafter]
  | validated hp | rejected hp | loadedBlock hp | fetched hp | storedBlock hp | unpadEmpty hp | unpadBad hp
  | unpadded hp | finished hp => rw [hp]; simp [errorState, fetchBlock]

theorem runLatched_of_decode {s : State} {i : Instr} (h : decode s.q.cmd = .instr i) : runLatched s = exec i s := by
  rw [runLatched, h]

/-- In a transaction the engine runs what the decoder made of Q.CMD (R39, R79). -/
theorem engineStep_active {s : State} (h : s.phase.active = true) : engineStep s = runLatched s := by
  unfold engineStep
  cases hp : s.phase <;> simp_all [Phase.active]

/-- A latched word that is no command steps in VALIDATE only, into its error (R206, R207). -/
theorem runLatched_next {s t : State} (h : runLatched s = .next t) :
    (∃ i, decode s.q.cmd = .instr i ∧ ExecNext i s t) ∨
      s.phase = .validate ∧ (∀ i, decode s.q.cmd ≠ .instr i) ∧ ∃ e, t = errorState e s := by
  unfold runLatched at h
  cases hd : decode s.q.cmd with
  | instr i =>
    rw [hd] at h
    exact .inl ⟨i, rfl, execNext_of_exec h⟩
  | illegal c =>
    simp only [hd] at h
    split at h
    · cases h; exact .inr ⟨‹_›, nofun, _, rfl⟩
    · cases h
  | unsupported mode =>
    simp only [hd] at h
    split at h
    · cases h; exact .inr ⟨‹_›, nofun, _, rfl⟩
    · cases h

/-- An engine step is one of a transaction, or the accept step (R36, R39). -/
theorem engineStep_next {s t : State} (h : engineStep s = .next t) :
    (s.phase.active = true ∧ runLatched s = .next t) ∨
      (s.phase = .idle ∧ ∃ r, s.req = some r ∧ t = accept r s) := by
  by_cases ha : s.phase.active = true
  · exact .inl ⟨ha, engineStep_active ha ▸ h⟩
  · unfold engineStep at h
    cases hp : s.phase with
    | idle =>
      simp only [hp] at h
      split at h <;> cases h
      exact .inr ⟨rfl, _, ‹_›, rfl⟩
    | respond => simp [hp] at h
    | validate | load | fetch | round | store | unpad | finish => simp [hp, Phase.active] at ha

/-- Settles O35: the accept step, then the phases of each next state of exec. -/
theorem phasesFollowTheStepRules : Obligations.PhasesFollowTheStepRules := by
  intro s t h
  obtain ⟨-, h⟩ | ⟨hp, r, -, rfl⟩ := engineStep_next h
  · obtain ⟨i, -, hn⟩ | ⟨hp, -, e, rfl⟩ := runLatched_next h
    · have := hn.phase_follows
      cases hp : s.phase <;> simp_all
    · rw [hp]; exact .inr rfl
  · rw [hp]; rfl

/-- The same state with other chaining registers. -/
def State.withChaining (s : State) (a b : Block) : State := { s with ivw := a, tmp := b }

/-- A command that does not chain answers alike under any IVW and TMP. -/
theorem ExecNext.withChaining {i : Instr} {s t : State} (hc : chains i = false) (h : ExecNext i s t) (a b : Block) :
    ExecNext i (s.withChaining a b) (t.withChaining a b) := by
  cases h with
  | validated hp h => exact .validated (s := s.withChaining a b) hp h
  | rejected hp e h => exact .rejected (s := s.withChaining a b) hp e h
  | loadedBlock hp hi k bytes c hk hm hb => exact .loadedBlock (s := s.withChaining a b) hp hi k bytes c hk hm hb
  | loadedMessage hp hi k iv hk hiv =>
    exact .loadedMessage (s := s.withChaining a b) hp hi k a hk (by simp [loadIv, hc, State.withChaining])
  | fetched hp hi c hb =>
    have := ExecNext.fetched (s := s.withChaining a b) hp hi c hb
    simp only [fetchBlock, hc, Bool.false_and, Bool.false_eq_true, if_false] at this ⊢
    exact this
  | rounded hp => exact .rounded (s := s.withChaining a b) hp
  | storedBlock hp hi => exact .storedBlock (s := s.withChaining a b) hp hi
  | storedMessage hp hi hb =>
    have := ExecNext.storedMessage (s := s.withChaining a b) hp hi hb
    simp only [chainOutput, hc, Bool.false_and, Bool.false_eq_true, if_false] at this ⊢
    exact this
  | unpadEmpty hp hi h0 => exact .unpadEmpty (s := s.withChaining a b) hp hi h0
  | unpadBad hp hi h0 p hr e he => exact .unpadBad (s := s.withChaining a b) hp hi h0 p hr e he
  | unpadded hp hi h0 p hr he => exact .unpadded (s := s.withChaining a b) hp hi h0 p hr he
  | finished hp out hr => exact .finished (s := s.withChaining a b) hp out hr

/-- A command that does not chain writes neither IVW nor TMP. -/
theorem ExecNext.keeps_chaining {i : Instr} {s t : State} (hc : chains i = false) (h : ExecNext i s t) :
    t.ivw = s.ivw ∧ t.tmp = s.tmp := by
  cases h <;> simp_all [errorState, loadMessage, fetchBlock, roundState, chainOutput, loadIv]

/-- Settles O39: each next state of exec, with any IVW and TMP. -/
theorem chainingRegistersBelongToCbc : Obligations.ChainingRegistersBelongToCbc := by
  intro i s t hc h
  have hn := execNext_of_exec h
  obtain ⟨hivw, htmp⟩ := hn.keeps_chaining hc
  exact ⟨hivw, htmp, fun a b => exec_of_execNext (hn.withChaining hc a b)⟩

/-! ### Stops -/

theorem orFault_none {α : Type} {x : Option α} {f : Fault} {k : α → Out} (h : x = none) : orFault x f k = .fault f := by
  rw [h]; rfl

theorem memRead_eq_none {q : Request} {a n : Nat} (h : q.dataLen.toNat < a + n) : memRead q a n = none := by
  rw [memRead, if_neg (by omega)]

theorem memWrite_eq_none {cap : Nat} {m : Memory} {a : Nat} {v : List Byte} (h : cap + 8 < a + 8) :
    memWrite cap m a v = none := by
  rw [memWrite, if_neg (by omega)]

theorem Memory.readBytes_eq_none {m : Memory} {n a : Nat} (h : Memory.read m a = none) (ha : a < n) :
    Memory.readBytes m 0 n = none := by
  cases hr : Memory.readBytes m 0 n with
  | none => rfl
  | some out =>
    obtain ⟨hlen, hread⟩ := Memory.readBytes_eq_some.mp hr
    have := hread a ha
    rw [Nat.zero_add, h, List.getElem?_eq_none_iff] at this
    omega

/-- Without padding, a block past the end of the data is a read outside IN_BUF (R51, R164). -/
theorem formBlock_eq_none {q : Request} {p bi : Nat} (h : q.dataLen.toNat < 8 * bi + 8) :
    formBlock false q p bi = none := by
  rw [formBlock, if_pos (.inr rfl), memRead_eq_none h]

/-- With padding, so is a block past the padded one. -/
theorem formBlock_pad_eq_none {q : Request} {p bi : Nat} (h : q.dataLen.toNat / 8 < bi) :
    formBlock true q p bi = none := by
  rw [formBlock, if_neg (by simp; omega), memRead_eq_none (by omega), Option.map_none]

theorem exec_fetch_outside {i : Instr} {s : State} (hp : s.phase = .fetch) (hi : isMessage i = true)
    (h : formBlock (pads i) s.q s.padlen.toNat s.bi.toNat = none) : exec i s = .fault .inBufRange := by
  rw [exec_fetch hp hi, fetchStep, orFault_none h]

/-- Settles O38: in each case the access that comes first has no value. -/
theorem accessesOutsideTheirBuffersStop : Obligations.AccessesOutsideTheirBuffersStop := by
  intro s i
  refine ⟨fun hp hi h => ?_, fun hp hi hkey h => ?_, fun hp hi hpad h => ?_, fun hp hpad h => ?_,
    fun hp hu h0 h => ?_, fun hp h => ?_⟩
  · rw [exec_store_message hp hi, messageStore, storeOutput, orFault_none]
    exact memWrite_eq_none h
  · obtain ⟨k, hk⟩ := keyOfBytes_eq_some hkey
    rw [exec_load_block hp hi, blockLoad, hk, orFault, orFault_none (memRead_eq_none h)]
  · exact exec_fetch_outside hp hi (by rw [hpad]; exact formBlock_eq_none h)
  · exact exec_fetch_outside hp (isMessage_of_pads hpad) (by rw [hpad]; exact formBlock_pad_eq_none h)
  · rw [exec_unpad hp hu, unpadStep, if_neg h0, orFault_none h]
  · obtain ⟨a, ha, hr⟩ := h
    rw [exec_finish hp, finishStep, enterRespond, orFault_none]
    exact Memory.readBytes_eq_none hr ha

end Sys2Proof.Machine

/-! SUPPORT. The VALIDATE step is `Validate(Q)`, whatever Q.CMD decodes to (R79, R203, R206, R207). -/

namespace Sys2Proof.Machine

/-- The fields of a word that decodes to a command (R70, R79). -/
theorem cmdFields_of_decode {c : Word} {i : Instr} (h : decode c = .instr i) :
    cmdRsvd c = 0 ∧
    match i with
    | .encipher => cmdOp c = 1
    | .decipher => cmdOp c = 2
    | .encryptEcb skip => cmdOp c = 3 ∧ cmdMode c = 0 ∧ cmdSkip c = skip
    | .encryptCbc skip ivp => cmdOp c = 3 ∧ cmdMode c = 1 ∧ cmdSkip c = skip ∧ cmdIvp c = ivp
    | .decryptEcb skip => cmdOp c = 4 ∧ cmdMode c = 0 ∧ cmdSkip c = skip
    | .decryptCbc skip ivp => cmdOp c = 4 ∧ cmdMode c = 1 ∧ cmdSkip c = skip ∧ cmdIvp c = ivp := by
  unfold decode at h
  split_ifs at h <;> cases h <;> simp_all

theorem operandError_eq_validate {cap : Nat} {q : Request} {i : Instr} (h : decode q.cmd = .instr i) :
    operandError cap q i = validate cap q := by
  obtain ⟨hr, hf⟩ := cmdFields_of_decode h
  cases i with
  | encipher | decipher => simp_all [operandError, blockCommandError, validate]
  | encryptEcb | decryptEcb | encryptCbc | decryptCbc => simp_all [operandError, messageError, validate]

theorem validate_of_illegal {cap : Nat} {q : Request} {c : Word} (h : decode q.cmd = .illegal c) :
    validate cap q = some ⟨.illegalCommand, c⟩ := by
  unfold decode at h
  split_ifs at h <;> cases h <;> simp_all [validate]

theorem validate_of_unsupported {cap : Nat} {q : Request} {m : BitVec 4} (h : decode q.cmd = .unsupported m) :
    validate cap q = some ⟨.unsupportedMode, m.setWidth 32⟩ := by
  unfold decode at h
  split_ifs at h <;> cases h <;> simp_all [validate]

/-- A request that passes R203 holds a command. -/
theorem decode_of_validate {cap : Nat} {q : Request} (h : validate cap q = none) :
    ∃ i, decode q.cmd = .instr i ∧ Accepted cap q i := by
  cases hd : decode q.cmd with
  | instr i => exact ⟨i, rfl, operandError_eq_none.mp ((operandError_eq_validate hd).trans h)⟩
  | illegal c => simp [validate_of_illegal hd] at h
  | unsupported m => simp [validate_of_unsupported hd] at h

theorem runLatched_validate {s : State} (hp : s.phase = .validate) :
    runLatched s = validateStep (validate s.config.maxMsgBytes s.q) s := by
  cases hd : decode s.q.cmd with
  | instr i => rw [runLatched_of_decode hd, exec_validate hp, operandError_eq_validate hd]
  | illegal c => rw [validate_of_illegal hd]; simp only [runLatched, hd, if_pos hp, validateStep]
  | unsupported m => rw [validate_of_unsupported hd]; simp only [runLatched, hd, if_pos hp, validateStep]

end Sys2Proof.Machine

/-! SUPPORT. One step of engine and host by the move that is due (R35 to R37, R230), and the obligations about the ports,
the decoded command and reset. -/

namespace Sys2Proof.Machine

section

variable {s : State} {r : Request} {rest : List HostMove}

theorem step_noMove (h : s.host = []) : step s = engineStep s := by
  rw [step, systemStep, h]

theorem step_submit (h : s.host = .submit r :: rest) :
    step s = if submitEnabled s then submitRequest r (s.setHost rest) else engineStep s := by
  rw [step, systemStep, h]

theorem step_take_response {x : Response} (h : s.host = .take :: rest) (hr : s.rsp = some x) :
    step s = .next (takeResponse x (s.setHost rest)) := by
  simp only [step, systemStep, h, hr]

theorem step_take_empty (h : s.host = .take :: rest) (hr : s.rsp = none) :
    step s = if s.phase = .idle ∧ s.req = none then .fault .waitingForResponse else engineStep s := by
  simp only [step, systemStep, h, hr]

theorem step_engine (h : s.host = .engine :: rest) : step s = engineStep (s.setHost rest) := by
  rw [step, systemStep, h]

theorem step_reset (h : s.host = .reset :: rest) : step s = .next (resetEvent (s.setHost rest)) := by
  rw [step, systemStep, h]

theorem submitEnabled_iff : submitEnabled s = true ↔ s.phase = .idle ∧ s.req = none ∧ s.rsp = none := by
  simp [submitEnabled]

theorem ne_idle_of_active {p : Phase} (h : p.active = true) : p ≠ .idle := by
  rintro rfl; cases h

theorem engineStep_of_decode {i : Instr} (ha : s.phase.active = true) (hd : decode s.q.cmd = .instr i) :
    engineStep s = exec i s := by
  rw [engineStep_active ha, runLatched_of_decode hd]

theorem engineStep_accept (hp : s.phase = .idle) (hr : s.req = some r) : engineStep s = .next (accept r s) := by
  simp only [engineStep, hp, hr]

theorem step_accept (hp : s.phase = .idle) (hr : s.req = some r) (hh : s.host = []) :
    step s = .next (accept r s) := by
  rw [step_noMove hh, engineStep_accept hp hr]

end

/-- Settles O30: the submit arm of the step, with its enabling condition and the check at the port. -/
theorem submitPlacesOneWellFormedRequest : Obligations.SubmitPlacesOneWellFormedRequest := by
  intro s r rest h
  rw [step_submit h]
  refine ⟨fun hen => ⟨fun hwf => ?_, fun hwf => ?_⟩, fun hen => ?_⟩
  · rw [if_pos (submitEnabled_iff.mpr hen), submitRequest, if_pos (Request.wf_iff.mpr hwf)]
    rfl
  · rw [if_pos (submitEnabled_iff.mpr hen), submitRequest, if_neg (mt Request.wf_iff.mp hwf)]
  · rw [if_neg (mt submitEnabled_iff.mp hen)]

/-- Settles O31: the take arm of the step. -/
theorem takeReturnsToIdle : Obligations.TakeReturnsToIdle := by
  intro s r rest h hr
  rw [step_take_response h hr]
  rfl

/-- Settles O29: with no host move due the step in IDLE is accept. -/
theorem acceptLatchesTheRequest : Obligations.AcceptLatchesTheRequest := by
  intro s r hp hr hh
  rw [step_accept hp hr hh]
  rfl

/-- Settles O32: the two phases in which the engine has no step of its own. -/
theorem engineWaitsForTheHost : Obligations.EngineWaitsForTheHost := by
  intro s hh
  rw [step_noMove hh]
  constructor
  · intro hp
    simp only [engineStep, hp]
  · intro hp hr
    simp only [engineStep, hp, hr]

/-- Settles O34: each clause is a field of the reset state. -/
theorem resetStateIsIdleAndEmpty : Obligations.ResetStateIsIdleAndEmpty :=
  ⟨rfl, rfl, rfl, fun _ => rfl, rfl, rfl⟩

/-- Settles O25: neither a submit nor a take is enabled inside a transaction. -/
theorem stepRunsTheDecodedCommand : Obligations.StepRunsTheDecodedCommand := by
  intro s i ha hd
  have hidle := ne_idle_of_active ha
  have hexec := engineStep_of_decode ha hd
  refine ⟨fun h => ?_, fun r rest h => ?_, fun rest h hr => ?_, fun rest h => ?_⟩
  · rw [step_noMove h, hexec]
  · rw [step_submit h, if_neg (fun hen => hidle (submitEnabled_iff.mp hen).1), hexec]
  · rw [step_take_empty h hr, if_neg (fun hw => hidle hw.1), hexec]
  · rw [step_engine h]
    exact engineStep_of_decode (s := s.setHost rest) ha hd

theorem tableWord_toNat (w : Word) : tableWord 32 w.toNat = w := by
  rw [tableWord, Nat.mod_eq_of_lt w.isLt, BitVec.ofNat_toNat, BitVec.setWidth_eq]

/-- The payload of log 8 passes the checks of every command. -/
theorem accepted_fetchRequest {cap : Nat} (h : 8 ≤ cap) (w : Word) (i : Instr) : Accepted cap (fetchRequest w) i :=
  ⟨rfl, fun _ => rfl, fun _ => h, fun _ => rfl, fun _ => by simp [fetchRequest]⟩

/-- Settles O26: the placed word decodes to the command, and its payload passes every check. -/
theorem placedCommandRunsNext : Obligations.PlacedCommandRunsNext := by
  intro s i
  rw [State.withFetchWord, tableWord_toNat]
  have hstep : step (placeCommand (encode i) s) = exec i (placeCommand (encode i) s) := by
    rw [step_noMove rfl]
    exact engineStep_of_decode rfl (decode_encode i)
  refine ⟨hstep, fun hcap => ?_⟩
  rw [hstep]
  exact exec_of_execNext (.validated rfl (operandError_eq_none.mpr (accepted_fetchRequest hcap _ i)))

end Sys2Proof.Machine

/-! SUPPORT. The machine's invariant: at reset, kept by every step, and enough for every engine step to answer (R32, R39,
R55, R108). -/

namespace Sys2Proof.Machine

/-! ### Where each phase's part of the invariant holds -/

section

variable {i : Instr} {s t : State}

theorem phaseInv_fetch (hp : s.phase = .fetch) : phaseInv i s ↔ LoopInv i s := by
  simp only [phaseInv, hp]

theorem phaseInv_round (hp : s.phase = .round) :
    phaseInv i s ↔ LoopInv i s ∧ ∃ n, 0 < n ∧ n ≤ 32 ∧ s.sum = sumWithRoundsLeft (enciphers i) n := by
  simp only [phaseInv, hp]

theorem phaseInv_store (hp : s.phase = .store) :
    phaseInv i s ↔ LoopInv i s ∧ s.sum = sumWithRoundsLeft (enciphers i) 0 := by
  simp only [phaseInv, hp]

theorem phaseInv_unpad (hp : s.phase = .unpad) :
    phaseInv i s ↔ s.olen.toNat = 8 * blocksFor s.q.dataLen.toNat i ∧ outputWritten s s.olen.toNat := by
  simp only [phaseInv, hp]

theorem phaseInv_finish (hp : s.phase = .finish) :
    phaseInv i s ↔ s.olen.toNat ≤ 8 * blocksFor s.q.dataLen.toNat i ∧ outputWritten s s.olen.toNat := by
  simp only [phaseInv, hp]

theorem padError_eq_none {p : Byte} {len : Nat} :
    padError p len = none ↔ p ≠ 0 ∧ p.toNat ≤ 8 ∧ p.toNat ≤ len := by
  simp [padError]

/-- All blocks are stored: what UNPAD and FINISH ask for. -/
theorem phaseInv_afterBlocks (hp : s.phase = afterBlocks i)
    (hlen : s.olen.toNat = 8 * blocksFor s.q.dataLen.toNat i) (hw : outputWritten s s.olen.toNat) :
    hasPhase i s.phase = true ∧ phaseInv i s := by
  unfold afterBlocks at hp
  split at hp
  · exact ⟨by simpa [hasPhase, hp], (phaseInv_unpad hp).mpr ⟨hlen, hw⟩⟩
  · exact ⟨by simp [hasPhase, hp], (phaseInv_finish hp).mpr ⟨hlen.le, hw⟩⟩

/-- A store that follows on what is written extends it. -/
theorem outputWritten_writeBytes {m : Memory} {n : Nat} {v : List Byte}
    (h : ∀ a < n, (Memory.read m a).isSome) : ∀ a < n + v.length, (Memory.read (Memory.writeBytes m n v) a).isSome := by
  intro a ha
  rw [Memory.read_writeBytes]
  split
  · rw [List.getElem?_eq_getElem (by omega)]; rfl
  · exact h a (by omega)

end

/-! ### What each step of a command keeps -/

section

variable {i : Instr} {s t : State}

/-- OUT_BUF stays canonical and inside its capacity (R29, R50, R52). -/
theorem ExecNext.keeps_memory (h : ExecNext i s t) (hwf : Memory.wf s.outBuf)
    (hcap : ∀ c ∈ s.outBuf, c.1 < s.config.maxMsgBytes + 8) :
    Memory.wf t.outBuf ∧ ∀ c ∈ t.outBuf, c.1 < s.config.maxMsgBytes + 8 := by
  have hstore : ∀ (a : Nat) (b : Block), a + 8 ≤ s.config.maxMsgBytes + 8 →
      Memory.wf (Memory.writeBytes s.outBuf a (bytesOfBlock b)) ∧
        ∀ c ∈ Memory.writeBytes s.outBuf a (bytesOfBlock b), c.1 < s.config.maxMsgBytes + 8 := by
    refine fun a b ha => ⟨Memory.writeBytes_wf hwf _ _, fun c hc => ?_⟩
    rcases Memory.mem_writeBytes hc with hc | hc
    · exact hcap c hc
    · rw [bytesOfBlock_length] at hc; omega
  cases h with
  | storedBlock => exact hstore 0 _ (by omega)
  | storedMessage hp hi hb => exact hstore _ _ hb
  | validated | rejected | loadedBlock | loadedMessage | fetched | rounded | unpadEmpty | unpadBad | unpadded
  | finished => exact ⟨hwf, hcap⟩

theorem errorResponse_wf (e : Error) :
    Response.wf { status := e.kind.code.setWidth 32, errInfo := e.info, outLen := 0, out := [] } = true := by
  cases e with
  | mk kind info => cases kind <;> rfl

theorem afterBlocks_active (i : Instr) : (afterBlocks i).active = true := by
  obtain h | h := afterBlocks_cases i <;> rw [h] <;> rfl

/-- RESPOND is entered with a well-formed response; no other step writes RSP (R37, R80, R81). -/
theorem ExecNext.responds (h : ExecNext i s t) :
    (t.phase = .respond ∧ t.outBuf = s.outBuf ∧ ∃ r, t.rsp = some r ∧ r.wf = true) ∨
      (t.phase.active = true ∧ t.rsp = s.rsp) := by
  cases h with
  | rejected hp e | unpadEmpty | unpadBad hp hi h0 p hr e => exact .inl ⟨rfl, rfl, _, rfl, errorResponse_wf _⟩
  | finished hp out hr =>
    refine .inl ⟨rfl, rfl, _, rfl, ?_⟩
    simp [Response.wf, (Memory.readBytes_eq_some.mp hr).1]
  | validated | loadedBlock | fetched | storedBlock | unpadded => exact .inr ⟨rfl, rfl⟩
  | rounded =>
    refine .inr ⟨?_, rfl⟩
    simp only [roundState]
    split <;> rfl
  | loadedMessage | storedMessage =>
    refine .inr ⟨?_, rfl⟩
    simp only [loadMessage, State.loadedMessage_phase, State.stored_phase]
    split
    · rfl
    · exact afterBlocks_active i

theorem outputWritten_zero (s : State) : outputWritten s 0 := fun a ha => absurd ha (Nat.not_lt_zero a)

/-- LOAD of a block command stands before its first round (R122). -/
theorem phaseInv_loadedBlock (hi : isMessage i = false) {k : Key} (hk : keyOfBytes s.q.key = some k) (b : Block) :
    phaseInv i (s.loadedBlock k b (startSum i)) := by
  refine (phaseInv_round rfl).mpr ⟨⟨hk, ?_, ?_, Nat.zero_lt_one, rfl, outputWritten_zero _⟩,
    32, by omega, le_rfl, startSum_eq i⟩
  · intro hpad
    simp [isMessage_of_pads hpad] at hi
  · exact (blocksFor_block hi _).symm

/-- LOAD of a message command stands before its first block, or after its last where there is none (R176). -/
theorem phaseInv_loadMessage (hi : isMessage i = true) {k : Key} (hk : keyOfBytes s.q.key = some k) (iv : Block) :
    hasPhase i (loadMessage (pads i) (afterBlocks i) k iv s).phase = true ∧
      phaseInv i (loadMessage (pads i) (afterBlocks i) k iv s) := by
  by_cases hnb : 0 < blockCount (pads i) s.q.dataLen.toNat
  · have hph : (loadMessage (pads i) (afterBlocks i) k iv s).phase = .fetch := if_pos hnb
    refine ⟨by rw [hph]; exact hi, (phaseInv_fetch hph).mpr
      ⟨hk, loadMessage_padlen, loadMessage_nb hi, ?_, rfl, outputWritten_zero _⟩⟩
    rw [loadMessage_nb hi, blocksFor_message hi]
    exact hnb
  · have hph : (loadMessage (pads i) (afterBlocks i) k iv s).phase = afterBlocks i := if_neg hnb
    refine phaseInv_afterBlocks hph ?_ (outputWritten_zero _)
    simp [loadMessage, blocksFor_message hi, Nat.eq_zero_of_not_pos hnb]

/-- A round leaves one round less to do, and STORE follows on the last (R114, R117, R123). -/
theorem phaseInv_roundState (hp : s.phase = .round) (hs : phaseInv i s) :
    hasPhase i (roundState (enciphers i) s).phase = true ∧ phaseInv i (roundState (enciphers i) s) := by
  obtain ⟨⟨hkey, hpad, hcount, hinside, hlength, hwritten⟩, n, hn0, hn, hsum⟩ := (phaseInv_round hp).mp hs
  have hloop : LoopInv i (roundState (enciphers i) s) := ⟨hkey, hpad, hcount, hinside, hlength, hwritten⟩
  obtain ⟨n, rfl⟩ := Nat.exists_eq_succ_of_ne_zero hn0.ne'
  have hafter : sumAfter (enciphers i) s.sum = sumWithRoundsLeft (enciphers i) n := by
    rw [hsum, sumAfter_sumWithRoundsLeft _ hn]
  by_cases h0 : n = 0
  · have hph : (roundState (enciphers i) s).phase = .store := by simp [roundState, hafter, h0]
    exact ⟨by rw [hph]; rfl, (phaseInv_store hph).mpr ⟨hloop, h0 ▸ hafter⟩⟩
  · have hph : (roundState (enciphers i) s).phase = .round := by
      simp [roundState, hafter, sumWithRoundsLeft_eq_last _ hn, h0]
    exact ⟨by rw [hph]; rfl, (phaseInv_round hph).mpr ⟨hloop, n, by omega, by omega, hafter⟩⟩

/-- STORE of a message command: one more block of the output is written (R166, R178). -/
theorem phaseInv_storedMessage (hi : isMessage i = true) (hp : s.phase = .store) (hs : phaseInv i s)
    (hfit : 8 * blocksFor s.q.dataLen.toNat i < 2 ^ 32) :
    let t := (chainOutput i s).stored
      (Memory.writeBytes s.outBuf (8 * s.bi.toNat) (bytesOfBlock ⟨(chainOutput i s).y, (chainOutput i s).z⟩))
      (s.olen + 8) (s.bi + 1) (if (s.bi + 1).toNat < s.nb.toNat then .fetch else afterBlocks i)
    hasPhase i t.phase = true ∧ phaseInv i t := by
  obtain ⟨⟨hkey, hpad, hcount, hinside, hlength, hwritten⟩, -⟩ := (phaseInv_store hp).mp hs
  have hbi : (s.bi + 1).toNat = s.bi.toNat + 1 := by bv_omega
  have holen : (s.olen + 8).toNat = 8 * s.bi.toNat + 8 := by bv_omega
  have hw := outputWritten_writeBytes (v := bytesOfBlock ⟨(chainOutput i s).y, (chainOutput i s).z⟩)
    (hlength ▸ hwritten)
  rw [bytesOfBlock_length, ← holen] at hw
  by_cases hlt : (s.bi + 1).toNat < s.nb.toNat
  · rw [if_pos hlt]
    exact ⟨hi, (phaseInv_fetch rfl).mpr
      ⟨hkey, hpad, hcount, hlt, holen.trans (by rw [State.stored_bi, hbi]; omega), hw⟩⟩
  · rw [if_neg hlt]
    refine phaseInv_afterBlocks rfl (holen.trans ?_) hw
    simp only [chainOutput, State.stored_q, State.chained_q]
    omega

/-- The invariant's part about the command in progress, after a step that stays in the transaction: `hs` is that part
before it, for VALIDATE that there is none yet. -/
theorem ExecNext.keeps_phaseInv (h : ExecNext i s t) (hacc : Accepted s.config.maxMsgBytes s.q i)
    (hcap : s.config.maxMsgBytes + 8 < 2 ^ 32) (hs : s.phase ≠ .validate → phaseInv i s)
    (ht : t.phase.active = true) : hasPhase i t.phase = true ∧ phaseInv i t := by
  cases h with
  | validated => exact ⟨rfl, trivial⟩
  | rejected | unpadEmpty | unpadBad | finished => cases ht
  | loadedBlock hp hi k bytes b hk hm hb => exact ⟨rfl, phaseInv_loadedBlock hi hk b⟩
  | loadedMessage hp hi k iv hk hiv => exact phaseInv_loadMessage hi hk iv
  | fetched hp hi b hb =>
    obtain ⟨hkey, hpad, hcount, hinside, hlength, hwritten⟩ := (phaseInv_fetch hp).mp (hs (by simp [hp]))
    exact ⟨rfl, (phaseInv_round rfl).mpr
      ⟨⟨hkey, hpad, hcount, hinside, hlength, hwritten⟩, 32, by omega, le_rfl, startSum_eq i⟩⟩
  | rounded hp => exact phaseInv_roundState hp (hs (by simp [hp]))
  | storedBlock hp hi =>
    refine ⟨rfl, (phaseInv_finish rfl).mpr ⟨by simp [blocksFor_block hi], ?_⟩⟩
    exact outputWritten_writeBytes (n := 0) (v := bytesOfBlock ⟨s.y, s.z⟩) (outputWritten_zero s)
  | storedMessage hp hi hb =>
    exact phaseInv_storedMessage hi hp (hs (by simp [hp])) (hacc.blocks_fit.trans_lt hcap)
  | unpadded hp hi h0 p hr he =>
    obtain ⟨hlen, hwritten⟩ := (phaseInv_unpad hp).mp (hs (by simp [hp]))
    have hle : (s.olen - p.setWidth 32).toNat ≤ s.olen.toNat := by
      have := (padError_eq_none.mp he).2.2
      bv_omega
    exact ⟨rfl, (phaseInv_finish rfl).mpr ⟨hle.trans hlen.le, fun a ha => hwritten a (ha.trans_le hle)⟩⟩

end

/-! ### The invariant after a step -/

section

variable {s t : State}

/-- A step that enters RESPOND with a well-formed response. -/
theorem Inv.respond {r : Response} (hs : Inv s) (ha : s.phase.active = true) (hf : SameRequest s t)
    (hmem : t.outBuf = s.outBuf) (hp : t.phase = .respond) (hr : t.rsp = some r) (hwf : r.wf = true) : Inv t where
  config := hf.config ▸ hs.config
  memory := hmem ▸ hs.memory
  capacity := by rw [hmem, hf.config]; exact hs.capacity
  request r' h := by
    rw [(hs.request r' (hf.req ▸ h)).1] at ha
    cases ha
  response := by simp [hp, hr]
  responseWf r' h := by
    rw [hr, Option.some.injEq] at h
    exact h ▸ hwf
  takenWf := hf.taken ▸ hs.takenWf
  latched _ := by
    rw [hf.q]
    exact hs.latched (by rintro h; rw [h] at ha; cases ha)
  command h := by rw [hp] at h; cases h

/-- A step of a command that stays in the transaction. -/
theorem Inv.advance {i : Instr} (hs : Inv s) (ha : s.phase.active = true) (hf : SameRequest s t)
    (hmem : Memory.wf t.outBuf ∧ ∀ c ∈ t.outBuf, c.1 < s.config.maxMsgBytes + 8)
    (hp : t.phase.active = true) (hr : t.rsp = s.rsp) (hc : CommandInv i t) : Inv t where
  config := hf.config ▸ hs.config
  memory := hmem.1
  capacity := by rw [hf.config]; exact hmem.2
  request r' h := by
    rw [(hs.request r' (hf.req ▸ h)).1] at ha
    cases ha
  response := by
    rw [hr, hs.response]
    constructor <;> intro h <;> simp [h, Phase.active] at ha hp
  responseWf := hr ▸ hs.responseWf
  takenWf := hf.taken ▸ hs.takenWf
  latched _ := by
    rw [hf.q]
    exact hs.latched (by rintro h; rw [h] at ha; cases ha)
  command _ _ := ⟨i, hc⟩

/-- The command in progress past VALIDATE is the one Q.CMD decodes to. -/
theorem Inv.commandInv {i : Instr} (hs : Inv s) (ha : s.phase.active = true) (hv : s.phase ≠ .validate)
    (hd : decode s.q.cmd = .instr i) : CommandInv i s := by
  obtain ⟨j, hj⟩ := hs.command ha hv
  obtain rfl : j = i := by simpa [hj.decoded] using hd
  exact hj

/-- The checks of R203 have passed wherever a step of the command stays in the transaction. -/
theorem Inv.accepted {i : Instr} (hs : Inv s) (ha : s.phase.active = true) (hd : decode s.q.cmd = .instr i)
    (hn : ExecNext i s t) (ht : t.phase.active = true) : operandError s.config.maxMsgBytes s.q i = none := by
  by_cases hv : s.phase = .validate
  · cases hn with
    | validated hp h => exact h
    | rejected => cases ht
    | _ hp => simp [hv] at hp
  · exact (hs.commandInv ha hv hd).accepted

theorem Inv.exec {i : Instr} (hs : Inv s) (ha : s.phase.active = true) (hd : decode s.q.cmd = .instr i)
    (hn : ExecNext i s t) : Inv t := by
  have hf := hn.sameRequest
  have hmem := hn.keeps_memory hs.memory hs.capacity
  obtain ⟨hp, hout, r, hr, hwf⟩ | ⟨ht, hr⟩ := hn.responds
  · exact hs.respond ha hf hout hp hr hwf
  · have hacc := hs.accepted ha hd hn ht
    obtain ⟨hphase, hinv⟩ := hn.keeps_phaseInv (operandError_eq_none.mp hacc) (capacity_lt_of_wf hs.config)
      (fun hv => (hs.commandInv ha hv hd).state) ht
    exact hs.advance ha hf hmem ht hr ⟨hf.q ▸ hd, by rw [hf.q, hf.config]; exact hacc, hphase, hinv⟩

theorem Inv.runLatched (hs : Inv s) (ha : s.phase.active = true) (h : runLatched s = .next t) : Inv t := by
  obtain ⟨i, hd, hn⟩ | ⟨-, -, e, rfl⟩ := runLatched_next h
  · exact hs.exec ha hd hn
  · exact hs.respond ha ⟨rfl, rfl, rfl, rfl, rfl⟩ rfl rfl rfl (errorResponse_wf e)

theorem Inv.accept {r : Request} (hs : Inv s) (hp : s.phase = .idle) (hr : s.req = some r) : Inv (accept r s) where
  config := hs.config
  memory := hs.memory
  capacity := hs.capacity
  request := nofun
  response := by
    have := hs.response
    rw [hp] at this
    exact this.trans (by simp [Machine.accept])
  responseWf := hs.responseWf
  takenWf := hs.takenWf
  latched _ := (hs.request r hr).2
  command _ h := absurd rfl h

theorem Inv.engineStep (hs : Inv s) (h : engineStep s = .next t) : Inv t := by
  obtain ⟨ha, h⟩ | ⟨hp, r, hr, rfl⟩ := engineStep_next h
  · exact hs.runLatched ha h
  · exact hs.accept hp hr

/-! ### The host's moves -/

theorem LoopInv.setHost {i : Instr} (h : LoopInv i s) (l : List HostMove) : LoopInv i (s.setHost l) := by
  obtain ⟨hkey, hpad, hcount, hinside, hlength, hwritten⟩ := h
  exact ⟨hkey, hpad, hcount, hinside, hlength, hwritten⟩

theorem phaseInv.setHost {i : Instr} (h : phaseInv i s) (l : List HostMove) : phaseInv i (s.setHost l) := by
  unfold phaseInv at h ⊢
  simp only [State.setHost_phase]
  cases hp : s.phase with
  | idle | validate | respond => simp [hp] at h
  | load => trivial
  | fetch => simp only [hp] at h; exact h.setHost l
  | round | store => simp only [hp] at h; exact ⟨h.1.setHost l, h.2⟩
  | unpad | finish => simp only [hp] at h; exact h

/-- The list of the host's moves is not the engine's: the invariant does not read it. -/
theorem Inv.setHost (hs : Inv s) (l : List HostMove) : Inv (s.setHost l) where
  config := hs.config
  memory := hs.memory
  capacity := hs.capacity
  request := hs.request
  response := hs.response
  responseWf := hs.responseWf
  takenWf := hs.takenWf
  latched := hs.latched
  command ha hv := by
    obtain ⟨i, hd, hacc, hphase, hinv⟩ := hs.command ha hv
    exact ⟨i, hd, hacc, hphase, hinv.setHost l⟩

theorem Inv.submitted {r : Request} (hs : Inv s) (hp : s.phase = .idle) (hr : r.wf = true) : Inv (s.submitted r) where
  config := hs.config
  memory := hs.memory
  capacity := hs.capacity
  request r' h := by
    obtain rfl : r = r' := by simpa using h
    exact ⟨hp, hr⟩
  response := hs.response
  responseWf := hs.responseWf
  takenWf := hs.takenWf
  latched h := absurd hp h
  command ha := absurd hp (ne_idle_of_active ha)

theorem Inv.tookResponse {r : Response} (hs : Inv s) (hr : s.rsp = some r) : Inv (s.tookResponse r) where
  config := hs.config
  memory := hs.memory
  capacity := hs.capacity
  request r' h := ⟨rfl, (hs.request r' h).2⟩
  response := by simp
  responseWf := nofun
  takenWf r' h := by
    rcases List.mem_append.mp h with h | h
    · exact hs.takenWf r' h
    · exact List.mem_singleton.mp h ▸ hs.responseWf r hr
  latched h := absurd rfl h
  command := nofun

/-- IDLE with both ports empty and no byte of OUT_BUF written (R41). -/
theorem inv_reset {c : Config} (hc : c.wf = true) (host : List HostMove) {taken : List Response}
    (ht : ∀ r ∈ taken, r.wf = true) : Inv { State.reset with config := c, host := host, taken := taken } where
  config := hc
  memory := List.Pairwise.nil
  capacity := nofun
  request := nofun
  response := by simp [State.reset]
  responseWf := nofun
  takenWf := ht
  latched h := absurd rfl h
  command := nofun

/-- Settles O40: the reset state with empty host lists. -/
theorem invariantAtReset : Obligations.InvariantAtReset :=
  fun _ hc => inv_reset hc [] nofun

/-- Settles O41: the engine's steps by `Inv.engineStep`, the host's moves one by one. -/
theorem everyStepKeepsTheInvariant : Obligations.EveryStepKeepsTheInvariant := by
  intro s t hs h
  match hh : s.host with
  | [] => exact hs.engineStep (step_noMove hh ▸ h)
  | .submit r :: rest =>
    rw [step_submit hh] at h
    split at h
    · rename_i hen
      unfold submitRequest at h
      split at h
      · cases h; exact (hs.setHost rest).submitted (submitEnabled_iff.mp hen).1 ‹_›
      · cases h
    · exact hs.engineStep h
  | .take :: rest =>
    cases hr : s.rsp with
    | some r =>
      rw [step_take_response hh hr] at h
      cases h
      exact (hs.setHost rest).tookResponse hr
    | none =>
      rw [step_take_empty hh hr] at h
      split at h
      · cases h
      · exact hs.engineStep h
  | .engine :: rest => exact (hs.setHost rest).engineStep (step_engine hh ▸ h)
  | .reset :: rest =>
    rw [step_reset hh] at h
    cases h
    exact inv_reset hs.config rest hs.takenWf

end

/-! ### Progress -/

section

variable {i : Instr} {s : State}

/-- Past VALIDATE every access of the command's step has its value (R55, R108). -/
theorem CommandInv.exec_answers (h : CommandInv i s) (hq : s.q.wf = true) : ∃ t, exec i s = .next t := by
  obtain ⟨-, hacc, hphase, hinv⟩ := h
  have hacc := operandError_eq_none.mp hacc
  cases hp : s.phase with
  | idle | respond => simp [hp, hasPhase] at hphase
  | validate => simp [hp, phaseInv] at hinv
  | load =>
    obtain ⟨k, hk⟩ := hacc.key hq
    cases hi : isMessage i with
    | false =>
      obtain ⟨b, hm, hb⟩ := hacc.blockData hq hi
      exact ⟨_, exec_of_execNext (.loadedBlock hp hi k _ b hk hm hb)⟩
    | true =>
      obtain ⟨iv, hiv⟩ := hacc.loadIv hq
      exact ⟨_, exec_of_execNext (.loadedMessage hp hi k iv hk hiv)⟩
  | fetch =>
    have hi : isMessage i = true := by simpa [hp, hasPhase] using hphase
    obtain ⟨-, hpad, hcount, hinside, -, -⟩ := (phaseInv_fetch hp).mp hinv
    obtain ⟨b, hb⟩ := exists_blockAt hacc hq hi hpad (hcount ▸ hinside)
    exact ⟨_, exec_of_execNext (.fetched hp hi b hb)⟩
  | round => exact ⟨_, exec_round hp⟩
  | store =>
    cases hi : isMessage i with
    | false => exact ⟨_, exec_of_execNext (.storedBlock hp hi)⟩
    | true =>
      obtain ⟨⟨-, -, hcount, hinside, -, -⟩, -⟩ := (phaseInv_store hp).mp hinv
      have := hacc.blocks_fit
      exact ⟨_, exec_of_execNext (.storedMessage hp hi (by omega))⟩
  | unpad =>
    have hi : unpads i = true := by simpa [hp, hasPhase] using hphase
    obtain ⟨-, hwritten⟩ := (phaseInv_unpad hp).mp hinv
    by_cases h0 : s.olen = 0
    · exact ⟨_, exec_of_execNext (.unpadEmpty hp hi h0)⟩
    · obtain ⟨p, hr⟩ := Option.isSome_iff_exists.mp (hwritten (s.olen.toNat - 1) (by bv_omega))
      cases he : padError p s.olen.toNat with
      | some e => exact ⟨_, exec_of_execNext (.unpadBad hp hi h0 p hr e he)⟩
      | none => exact ⟨_, exec_of_execNext (.unpadded hp hi h0 p hr he)⟩
  | finish =>
    obtain ⟨-, hwritten⟩ := (phaseInv_finish hp).mp hinv
    obtain ⟨out, hr⟩ := Memory.readBytes_isSome (a := 0) (fun a ha => by rw [Nat.zero_add]; exact hwritten a ha)
    exact ⟨_, exec_of_execNext (.finished hp out hr)⟩

/-- VALIDATE always answers (R203, R205). -/
theorem runLatched_validate_answers (hp : s.phase = .validate) : ∃ t, runLatched s = .next t := by
  rw [runLatched_validate hp]
  cases validate s.config.maxMsgBytes s.q with
  | none => exact ⟨_, validateStep_none s⟩
  | some e => exact ⟨_, raise_eq e s⟩

/-- Settles O42: VALIDATE always answers, and past it every access has its value. -/
theorem transactionsNeverStop : Obligations.TransactionsNeverStop := by
  intro s hs ha
  rw [engineStep_active ha]
  by_cases hv : s.phase = .validate
  · exact runLatched_validate_answers hv
  · obtain ⟨i, hi⟩ := hs.command ha hv
    rw [runLatched_of_decode hi.decoded]
    exact hi.exec_answers (hs.latched (ne_idle_of_active ha))

end

end Sys2Proof.Machine

/-! SUPPORT. Runs of steps: how they compose, and the 32 rounds of a block (R114, R117, R123). -/

namespace Sys2Proof.Machine

section

variable {i : Instr} {m n : Nat} {s t u : State}

theorem execSteps_succ (h : exec i s = .next t) : execSteps i (n + 1) s = execSteps i n t := by
  rw [execSteps, h]

theorem execSteps_one (h : exec i s = .next t) : execSteps i 1 s = .next t := by
  rw [execSteps_succ h, execSteps]

theorem execSteps_succ_next :
    execSteps i (n + 1) s = .next u ↔ ∃ t, exec i s = .next t ∧ execSteps i n t = .next u := by
  rw [execSteps]
  cases exec i s <;> simp

theorem execSteps_add (h : execSteps i m s = .next t) : execSteps i (m + n) s = execSteps i n t := by
  induction m generalizing s with
  | zero =>
    obtain rfl : s = t := by simpa [execSteps] using h
    rw [Nat.zero_add]
  | succ m ih =>
    obtain ⟨s', hs, hrun⟩ := execSteps_succ_next.mp h
    rw [Nat.add_right_comm, execSteps_succ hs, ih hrun]

theorem steps_succ (h : step s = .next t) : steps (n + 1) s = steps n t := by
  rw [steps, h]

theorem SameRequest.refl (s : State) : SameRequest s s := ⟨rfl, rfl, rfl, rfl, rfl⟩

theorem SameRequest.trans (h : SameRequest s t) (h' : SameRequest t u) : SameRequest s u :=
  ⟨h'.q.trans h.q, h'.req.trans h.req, h'.config.trans h.config, h'.host.trans h.host, h'.taken.trans h.taken⟩

theorem sameRequest_of_execSteps (h : execSteps i n s = .next t) : SameRequest s t := by
  induction n generalizing s with
  | zero =>
    obtain rfl : s = t := by simpa [execSteps] using h
    exact .refl s
  | succ n ih =>
    obtain ⟨s', hs, hrun⟩ := execSteps_succ_next.mp h
    exact (execNext_of_exec hs).sameRequest.trans (ih hrun)

theorem active_of_exec_next (h : exec i s = .next t) : s.phase.active = true := by
  have := hasPhase_of_exec_next h
  cases hp : s.phase <;> simp_all [hasPhase, Phase.active]

/-- With no host move due, steps of the command Q.CMD decodes to are steps of the machine (R39). -/
theorem steps_eq_execSteps (hh : s.host = []) (hd : decode s.q.cmd = .instr i) (h : execSteps i n s = .next t) :
    steps n s = .next t := by
  induction n generalizing s with
  | zero => exact h
  | succ n ih =>
    obtain ⟨s', hs, hrun⟩ := execSteps_succ_next.mp h
    have hf := (execNext_of_exec hs).sameRequest
    have hstep : step s = .next s' := by
      rw [step_noMove hh, engineStep_of_decode (active_of_exec_next hs) hd, hs]
    rw [steps_succ hstep]
    exact ih (hf.host.trans hh) (hf.q ▸ hd) hrun

end

/-! ### The rounds of one block -/

/-- `n` rounds in the command's direction. -/
def cipherRounds (enc : Bool) (k : Key) (n : Nat) (r : RoundRegs) : RoundRegs :=
  if enc then encRounds k n r else decRounds k n r

/-- Y and Z as a block. -/
def RoundRegs.block (r : RoundRegs) : Block := ⟨r.y, r.z⟩

/-- A block enciphered or deciphered (R112, R115). -/
def cipherBlock (enc : Bool) (k : Key) (b : Block) : Block := if enc then encipher k b else decipher k b

theorem cipherRounds_succ (enc : Bool) (k : Key) (n : Nat) (r : RoundRegs) :
    cipherRounds enc k (n + 1) r = cipherRounds enc k n (cipherRound enc k r) := by
  cases enc <;> rfl

theorem cipherBlock_eq_rounds (i : Instr) (k : Key) (b : Block) :
    cipherBlock (enciphers i) k b = (cipherRounds (enciphers i) k 32 ⟨b.v0, b.v1, startSum i⟩).block := by
  unfold startSum
  cases enciphers i <;> rfl

/-- The state after the last round, ready for STORE with the block in Y and Z. -/
def roundsDone (enc : Bool) (b : Block) (s : State) : State :=
  { s with y := b.v0, z := b.v1, sum := sumWithRoundsLeft enc 0, phase := .store }

theorem roundState_regs (enc : Bool) (s : State) :
    (⟨(roundState enc s).y, (roundState enc s).z, (roundState enc s).sum⟩ : RoundRegs) =
      cipherRound enc s.k ⟨s.y, s.z, s.sum⟩ := by
  cases enc <;> rfl

theorem execSteps_rounds {i : Instr} {n : Nat} (hn : n < 32) {s : State} (hp : s.phase = .round)
    (hsum : s.sum = sumWithRoundsLeft (enciphers i) (n + 1)) :
    execSteps i (n + 1) s =
      .next (roundsDone (enciphers i) (cipherRounds (enciphers i) s.k (n + 1) ⟨s.y, s.z, s.sum⟩).block s) := by
  induction n generalizing s with
  | zero =>
    have hlast : sumAfter (enciphers i) s.sum = sumWithRoundsLeft (enciphers i) 0 := by
      rw [hsum, sumAfter_sumWithRoundsLeft _ hn]
    rw [execSteps_one (exec_round hp), roundState, if_pos hlast, hlast, cipherRounds_succ]
    cases enciphers i <;> rfl
  | succ n ih =>
    have hafter : sumAfter (enciphers i) s.sum = sumWithRoundsLeft (enciphers i) (n + 1) := by
      rw [hsum, sumAfter_sumWithRoundsLeft _ hn]
    have hph : (roundState (enciphers i) s).phase = .round := by
      simp [roundState, hafter, sumWithRoundsLeft_eq_last _ hn]
    rw [execSteps_succ (exec_round hp), ih (by omega) hph hafter, roundState_regs, cipherRounds_succ _ _ (n + 1)]
    rfl

/-- All 32 rounds of a block (R112, R115). -/
theorem execSteps_cipher {i : Instr} {s : State} (hp : s.phase = .round) (hsum : s.sum = startSum i) :
    execSteps i 32 s = .next (roundsDone (enciphers i) (cipherBlock (enciphers i) s.k ⟨s.y, s.z⟩) s) := by
  rw [execSteps_rounds (n := 31) (by omega) hp (hsum.trans (startSum_eq i)), cipherBlock_eq_rounds, ← hsum]

end Sys2Proof.Machine

/-! SUPPORT. The block loop of the message commands: what one block's 34 steps do, and what all of them leave in OUT_BUF
(R141 to R147, R164 to R166, R177, R178). -/

namespace Sys2Proof.Machine

/-! ### One block -/

/-- The output block of an input block under a key and a chaining value (R141, R142, R144, R145). -/
def outputBlock (i : Instr) (k : Key) (iv b : Block) : Block :=
  if chains i && !enciphers i then xorBlock (cipherBlock (enciphers i) k b) iv
  else cipherBlock (enciphers i) k (if chains i && enciphers i then xorBlock b iv else b)

/-- The chaining value for the next block: the ciphertext block under CBC (R144, R145). -/
def nextIv (i : Instr) (k : Key) (iv b : Block) : Block :=
  if chains i then if enciphers i then outputBlock i k iv b else b else iv

/-- The state after FETCH, the rounds and STORE of one block. -/
def blockDone (i : Instr) (b : Block) (s : State) : State :=
  ({ s with
    y := (outputBlock i s.k s.ivw b).v0
    z := (outputBlock i s.k s.ivw b).v1
    ivw := nextIv i s.k s.ivw b
    tmp := if chains i && !enciphers i then b else s.tmp
    sum := sumWithRoundsLeft (enciphers i) 0 } : State).stored
      (Memory.writeBytes s.outBuf (8 * s.bi.toNat) (bytesOfBlock (outputBlock i s.k s.ivw b)))
      (s.olen + 8) (s.bi + 1) (if (s.bi + 1).toNat < s.nb.toNat then .fetch else afterBlocks i)

section

variable (i : Instr) (b : Block) (s : State)

@[simp] theorem blockDone_q : (blockDone i b s).q = s.q := rfl
@[simp] theorem blockDone_k : (blockDone i b s).k = s.k := rfl
@[simp] theorem blockDone_ivw : (blockDone i b s).ivw = nextIv i s.k s.ivw b := rfl
@[simp] theorem blockDone_padlen : (blockDone i b s).padlen = s.padlen := rfl
@[simp] theorem blockDone_bi : (blockDone i b s).bi = s.bi + 1 := rfl
@[simp] theorem blockDone_nb : (blockDone i b s).nb = s.nb := rfl
@[simp] theorem blockDone_olen : (blockDone i b s).olen = s.olen + 8 := rfl
@[simp] theorem blockDone_outBuf : (blockDone i b s).outBuf =
    Memory.writeBytes s.outBuf (8 * s.bi.toNat) (bytesOfBlock (outputBlock i s.k s.ivw b)) := rfl
@[simp] theorem blockDone_phase : (blockDone i b s).phase =
    if (s.bi + 1).toNat < s.nb.toNat then .fetch else afterBlocks i := rfl

end

theorem execSteps_block {i : Instr} {s : State} {b : Block} (hp : s.phase = .fetch) (hi : isMessage i = true)
    (hb : blockAt i s.q s.padlen.toNat s.bi.toNat = some b)
    (hfit : 8 * s.bi.toNat + 8 ≤ s.config.maxMsgBytes + 8) : execSteps i 34 s = .next (blockDone i b s) := by
  rw [execSteps_succ (exec_of_execNext (.fetched hp hi b hb)),
    execSteps_add (m := 32) (n := 1) (execSteps_cipher (s := fetchBlock i b s) rfl rfl)]
  refine (execSteps_one (exec_of_execNext (.storedMessage ?_ hi ?_))).trans ?_
  · rfl
  · exact hfit
  cases hc : chains i <;> cases he : enciphers i <;>
    simp only [hc, he, blockDone, outputBlock, nextIv, chainOutput, fetchBlock, roundsDone, State.fetched, State.chained,
      Bool.and_true, Bool.and_false, Bool.not_true, Bool.not_false, Bool.false_eq_true, if_true, if_false] <;> rfl

/-! ### All blocks -/

/-- The output blocks of a list of input blocks. -/
def chainBlocks (i : Instr) (k : Key) : Block → List Block → List Block
  | _, [] => []
  | iv, b :: bs => outputBlock i k iv b :: chainBlocks i k (nextIv i k iv b) bs

/-- The block loop with the blocks `bs` still to do and the bytes `done` in OUT_BUF. -/
structure BlockLoop (i : Instr) (s : State) (done : List Byte) (bs : List Block) : Prop where
  phase : s.phase = if bs = [] then afterBlocks i else .fetch
  blocks : ∀ j b, bs[j]? = some b → blockAt i s.q s.padlen.toNat (s.bi.toNat + j) = some b
  count : s.bi.toNat + bs.length = s.nb.toNat
  fits : 8 * s.nb.toNat ≤ s.config.maxMsgBytes + 8
  small : s.config.maxMsgBytes + 8 < 2 ^ 32
  length : s.olen.toNat = 8 * s.bi.toNat
  output : Memory.readBytes s.outBuf 0 s.olen.toNat = some done

/-- A store right behind what was read extends the read. -/
theorem Memory.readBytes_writeBytes {m : Memory} {n : Nat} {out v : List Byte}
    (h : Memory.readBytes m 0 n = some out) :
    Memory.readBytes (Memory.writeBytes m n v) 0 (n + v.length) = some (out ++ v) := by
  obtain ⟨hlen, hread⟩ := Memory.readBytes_eq_some.mp h
  refine Memory.readBytes_eq_some.mpr ⟨by simp [hlen], fun a ha => ?_⟩
  rw [Nat.zero_add, Memory.read_writeBytes]
  by_cases hn : a < n
  · rw [if_neg (by omega), List.getElem?_append_left (by omega), hread a hn, Nat.zero_add]
  · rw [if_pos (by omega), List.getElem?_append_right (by omega), hlen]

section

variable {i : Instr} {s : State} {done : List Byte} {b : Block} {bs : List Block}

theorem BlockLoop.next (h : BlockLoop i s done (b :: bs)) :
    BlockLoop i (blockDone i b s) (done ++ bytesOfBlock (outputBlock i s.k s.ivw b)) bs := by
  obtain ⟨-, hblocks, hcount, hfits, hsmall, hlength, houtput⟩ := h
  rw [List.length_cons] at hcount
  have hbi : (s.bi + 1).toNat = s.bi.toNat + 1 := by bv_omega
  have holen : (s.olen + 8).toNat = s.olen.toNat + 8 := by bv_omega
  refine ⟨?_, fun j c hj => ?_, ?_, hfits, hsmall, ?_, ?_⟩
  · rw [blockDone_phase]
    cases bs with
    | nil => exact if_neg (by rw [List.length_nil] at hcount; omega)
    | cons c cs => exact if_pos (by rw [List.length_cons] at hcount; omega)
  · rw [blockDone_q, blockDone_padlen, blockDone_bi, hbi, Nat.add_right_comm]
    exact hblocks (j + 1) c hj
  · rw [blockDone_bi, blockDone_nb, hbi]
    omega
  · rw [blockDone_olen, blockDone_bi, hbi, holen]
    omega
  · rw [blockDone_olen, blockDone_outBuf, holen, ← hlength]
    exact Memory.readBytes_writeBytes houtput

/-- Every block takes 34 steps, and the bytes of the output blocks follow on those in OUT_BUF. -/
theorem BlockLoop.run (hi : isMessage i = true) (h : BlockLoop i s done bs) :
    ∃ t, execSteps i (34 * bs.length) s = .next t ∧
      BlockLoop i t (done ++ bytesOfBlocks (chainBlocks i s.k s.ivw bs)) [] := by
  induction bs generalizing s done with
  | nil => exact ⟨s, rfl, by simpa [chainBlocks, bytesOfBlocks] using h⟩
  | cons b bs ih =>
    have hb : blockAt i s.q s.padlen.toNat s.bi.toNat = some b := h.blocks 0 b rfl
    have hfit : 8 * s.bi.toNat + 8 ≤ s.config.maxMsgBytes + 8 := by
      have := h.count
      have := h.fits
      rw [List.length_cons] at *
      omega
    obtain ⟨t, hrun, ht⟩ := ih h.next
    refine ⟨t, ?_, ?_⟩
    · rw [List.length_cons, Nat.mul_succ, Nat.add_comm, execSteps_add (execSteps_block h.phase hi hb hfit), hrun]
    · simpa [chainBlocks, bytesOfBlocks] using ht

end

end Sys2Proof.Machine

/-! SUPPORT. A command from LOAD to RESPOND: the response is that of its result by `commandOutput`, in the steps of R244
(R120, R121, R167, R169 to R180). -/

namespace Sys2Proof.Machine

/-! ### The input as blocks -/

theorem blocksOf_length : ∀ l : List Byte, (blocksOf l).length = l.length / 8
  | [] | [_] | [_, _] | [_, _, _] | [_, _, _, _] | [_, _, _, _, _] | [_, _, _, _, _, _] | [_, _, _, _, _, _, _] => by
    simp [blocksOf]
  | _ :: _ :: _ :: _ :: _ :: _ :: _ :: _ :: rest => by
    simp only [blocksOf, List.length_cons, blocksOf_length rest]
    omega

/-- Block `j` is bytes 8j .. 8j + 8 (R104, R164). -/
theorem blockOfBytes_of_blocksOf {l : List Byte} {j : Nat} {b : Block} (h : (blocksOf l)[j]? = some b) :
    blockOfBytes (slice l (8 * j) 8) = some b := by
  induction l using blocksOf.induct generalizing j with
  | case1 a₀ a₁ a₂ a₃ a₄ a₅ a₆ a₇ rest ih =>
    rw [blocksOf] at h
    cases j with
    | zero => rw [← h]; rfl
    | succ j => exact ih h
  | case2 l hl =>
    rw [blocksOf] at h
    · simp at h
    · exact hl

section

variable {i : Instr} {s : State}

theorem blocksOf_inputOf_length {cap : Nat} {q : Request} (hacc : Accepted cap q i) (hq : q.wf = true)
    (hi : isMessage i = true) : (blocksOf (inputOf i q.data)).length = blocksFor q.dataLen.toNat i := by
  rw [blocksOf_length, inputOf_length hacc hq hi, Nat.mul_div_cancel_left _ (by omega)]

/-- LOAD of a message command starts the block loop (R176). -/
theorem blockLoop_loadMessage (hacc : Accepted s.config.maxMsgBytes s.q i) (hq : s.q.wf = true)
    (hi : isMessage i = true) (hsmall : s.config.maxMsgBytes + 8 < 2 ^ 32) (k : Key) (iv : Block) :
    BlockLoop i (loadMessage (pads i) (afterBlocks i) k iv s) [] (blocksOf (inputOf i s.q.data)) := by
  have hlen := blocksOf_inputOf_length hacc hq hi
  have hnb := loadMessage_nb (s := s) (done := afterBlocks i) (k := k) (iv := iv) hi
  refine ⟨?_, fun j b hj => ?_, ?_, ?_, hsmall, rfl, rfl⟩
  · have hempty : blocksOf (inputOf i s.q.data) = [] ↔ ¬ 0 < blockCount (pads i) s.q.dataLen.toNat := by
      rw [← blocksFor_message hi, ← hlen, List.length_pos_iff, not_not]
    simp only [loadMessage, State.loadedMessage_phase, hempty, gt_iff_lt, ite_not]
  · have hj' : 0 + j < blocksFor s.q.dataLen.toNat i := by
      rw [Nat.zero_add, ← hlen]
      exact (List.getElem?_eq_some_iff.mp hj).1
    refine (blockAt_inputOf hacc hq hi loadMessage_padlen hj').trans (blockOfBytes_of_blocksOf ?_)
    rwa [Nat.zero_add]
  · rw [hlen, hnb]
    exact Nat.zero_add _
  · rw [hnb]
    exact hacc.blocks_fit

end

/-! ### After the last block -/

/-- What a message command answers once all blocks are out: the bytes, or what Unpad makes of them (R170, R173). -/
def outputOf (i : Instr) (out : List Byte) : Except Error (List Byte) := if unpads i then unpad out else .ok out

def isError : Except Error (List Byte) → Bool
  | .error _ => true
  | .ok _ => false

/-- The steps after the last block: FINISH, with UNPAD before it, or UNPAD alone where it raises an error (R244). -/
def lastSteps (i : Instr) (res : Except Error (List Byte)) : Nat := if unpads i && !isError res then 2 else 1

theorem Memory.readBytes_take {m : Memory} {n k : Nat} {out : List Byte} (h : Memory.readBytes m 0 n = some out)
    (hk : k ≤ n) : Memory.readBytes m 0 k = some (out.take k) := by
  obtain ⟨hlen, hread⟩ := Memory.readBytes_eq_some.mp h
  refine Memory.readBytes_eq_some.mpr ⟨by simp [hlen, hk], fun a ha => ?_⟩
  rw [List.getElem?_take_of_lt ha, hread a (by omega)]

section

variable {i : Instr} {s : State} {out : List Byte}

/-- FINISH answers with the output bytes (R180). -/
theorem exec_finish_ok (hp : s.phase = .finish) (h : Memory.readBytes s.outBuf 0 s.olen.toNat = some out) :
    ∃ t, exec i s = .next t ∧ t.phase = .respond ∧ t.rsp = some (okResponse out) := by
  refine ⟨_, exec_of_execNext (.finished hp out h), rfl, ?_⟩
  rw [State.responding_rsp, okResponse, (Memory.readBytes_eq_some.mp h).1, BitVec.ofNat_toNat, BitVec.setWidth_eq]

theorem unpad_of_padError {p : Byte} {e : Error} (hlast : out.getLast? = some p) (h : padError p out.length = some e) :
    unpad out = .error e := by
  simp only [unpad, hlast, h]

theorem unpad_of_padError_none {p : Byte} (hlast : out.getLast? = some p) (h : padError p out.length = none) :
    unpad out = .ok (out.take (out.length - p.toNat)) := by
  simp only [unpad, hlast, h]

/-- UNPAD is `unpad` on the bytes of OUT_BUF (R167). -/
theorem exec_unpad_result (hp : s.phase = .unpad) (hi : unpads i = true)
    (h : Memory.readBytes s.outBuf 0 s.olen.toNat = some out) :
    (∀ e, unpad out = .error e → exec i s = .next (errorState e s)) ∧
    ∀ plain, unpad out = .ok plain → ∃ t, exec i s = .next t ∧ t.phase = .finish ∧
      Memory.readBytes t.outBuf 0 t.olen.toNat = some plain := by
  obtain ⟨hlen, hread⟩ := Memory.readBytes_eq_some.mp h
  cases hlast : out.getLast? with
  | none =>
    obtain rfl := List.getLast?_eq_none_iff.mp hlast
    have h0 : s.olen = 0 := by rw [List.length_nil] at hlen; bv_omega
    refine ⟨fun e he => ?_, nofun⟩
    cases he
    exact exec_of_execNext (.unpadEmpty hp hi h0)
  | some p =>
    have hpos : 0 < out.length := List.length_pos_of_mem (List.mem_of_getLast? hlast)
    have hne : s.olen ≠ 0 := by bv_omega
    have hr : Memory.read s.outBuf (s.olen.toNat - 1) = some p := by
      rwa [List.getLast?_eq_getElem?, hlen, hread _ (by omega), Nat.zero_add] at hlast
    cases he : padError p s.olen.toNat with
    | some e =>
      rw [unpad_of_padError hlast (hlen ▸ he)]
      refine ⟨fun e' he' => ?_, nofun⟩
      cases he'
      exact exec_of_execNext (.unpadBad hp hi hne p hr e he)
    | none =>
      rw [unpad_of_padError_none hlast (hlen ▸ he), hlen]
      obtain ⟨-, hp8, hple⟩ := padError_eq_none.mp he
      have holen : (s.olen - p.setWidth 32).toNat = s.olen.toNat - p.toNat := by bv_omega
      refine ⟨nofun, fun plain hplain => ?_⟩
      cases hplain
      refine ⟨_, exec_of_execNext (.unpadded hp hi hne p hr he), rfl, ?_⟩
      rw [State.truncated_olen, holen]
      exact Memory.readBytes_take h (Nat.sub_le _ _)

/-- From the end of the block loop to RESPOND. -/
theorem BlockLoop.finish (h : BlockLoop i s out []) :
    ∃ t, execSteps i (lastSteps i (outputOf i out)) s = .next t ∧ t.phase = .respond ∧
      t.rsp = some (responseOf (outputOf i out)) := by
  have hp : s.phase = afterBlocks i := h.phase
  unfold afterBlocks at hp
  unfold lastSteps outputOf
  cases hu : unpads i with
  | false =>
    rw [hu] at hp
    obtain ⟨t, ht, hph, hrsp⟩ := exec_finish_ok (i := i) hp h.output
    exact ⟨t, execSteps_one ht, hph, hrsp⟩
  | true =>
    rw [hu] at hp
    obtain ⟨herr, hok⟩ := exec_unpad_result hp hu h.output
    simp only [if_true, Bool.true_and]
    cases hun : unpad out with
    | error e => exact ⟨_, execSteps_one (herr e hun), rfl, rfl⟩
    | ok plain =>
      obtain ⟨u, hstep, hpu, hout⟩ := hok plain hun
      obtain ⟨t, ht, hph, hrsp⟩ := exec_finish_ok (i := i) hpu hout
      exact ⟨t, (execSteps_succ hstep).trans (execSteps_one ht), hph, hrsp⟩

end

end Sys2Proof.Machine

/-! SUPPORT. A whole transaction: from the accept step to RESPOND with exactly `Transact(Q)` (R38, R39, R244). -/

namespace Sys2Proof.Machine

/-! ### The result of a command, on blocks -/

section

variable {i : Instr} (k : Key)

theorem chainBlocks_ecb (hc : chains i = false) (iv : Block) (bs : List Block) :
    chainBlocks i k iv bs = bs.map (cipherBlock (enciphers i) k) := by
  induction bs with
  | nil => rfl
  | cons b bs ih => simp [chainBlocks, outputBlock, nextIv, hc, ih]

theorem chainBlocks_cbcEncrypt (hc : chains i = true) (he : enciphers i = true) (iv : Block) (bs : List Block) :
    chainBlocks i k iv bs = cbcEncrypt k iv bs := by
  induction bs generalizing iv with
  | nil => rfl
  | cons b bs ih => simp [chainBlocks, cbcEncrypt, outputBlock, nextIv, cipherBlock, hc, he, ih]

theorem chainBlocks_cbcDecrypt (hc : chains i = true) (he : enciphers i = false) (iv : Block) (bs : List Block) :
    chainBlocks i k iv bs = cbcDecrypt k iv bs := by
  induction bs generalizing iv with
  | nil => rfl
  | cons b bs ih => simp [chainBlocks, cbcDecrypt, outputBlock, nextIv, cipherBlock, hc, he, ih]

theorem commandOutput_message (hi : isMessage i = true) {s : State} {iv : Block} (hiv : loadIv i s = some iv) :
    commandOutput k s.q i =
      some (outputOf i (bytesOfBlocks (chainBlocks i k iv (blocksOf (inputOf i s.q.data))))) := by
  cases i with
  | encipher | decipher => cases hi
  | encryptEcb skip =>
    rw [chainBlocks_ecb k rfl]
    cases skip <;> rfl
  | decryptEcb skip =>
    rw [chainBlocks_ecb k rfl]
    cases skip <;> rfl
  | encryptCbc skip ivp =>
    rw [chainBlocks_cbcEncrypt k rfl rfl, commandOutput, show ivOf ivp s.q = some iv from hiv]
    cases skip <;> rfl
  | decryptCbc skip ivp =>
    rw [chainBlocks_cbcDecrypt k rfl rfl, commandOutput, show ivOf ivp s.q = some iv from hiv]
    cases skip <;> rfl

theorem commandOutput_block (hi : isMessage i = false) {q : Request} {b : Block} (hb : blockOfBytes q.data = some b) :
    commandOutput k q i = some (.ok (bytesOfBlock (cipherBlock (enciphers i) k b))) := by
  cases i with
  | encipher | decipher => rw [commandOutput, hb]; rfl
  | encryptEcb | encryptCbc | decryptEcb | decryptCbc => cases hi

end

/-- The only error a command's result can be (R167, R213). -/
theorem unpad_error_kind {out : List Byte} {e : Error} (h : unpad out = .error e) : e.kind = .badPadding := by
  unfold unpad at h
  split at h
  · cases h; rfl
  · split at h
    · rename_i he
      unfold padError at he
      split at he <;> cases he
      cases h; rfl
    · cases h

theorem decryptOutput_error_kind {skip : Bool} {out : List Byte} {e : Error}
    (h : decryptOutput skip out = .error e) : e.kind = .badPadding := by
  unfold decryptOutput at h
  split at h
  · cases h
  · exact unpad_error_kind h

theorem commandOutput_error_kind {i : Instr} {k : Key} {q : Request} {e : Error}
    (h : commandOutput k q i = some (.error e)) : e.kind = .badPadding := by
  cases i with
  | encipher | decipher | encryptEcb | encryptCbc => simp [commandOutput] at h
  | decryptEcb => exact decryptOutput_error_kind (Option.some.inj h)
  | decryptCbc =>
    obtain ⟨iv, -, h⟩ := Option.map_eq_some_iff.mp h
    exact decryptOutput_error_kind h

/-! ### From LOAD to RESPOND -/

theorem successSteps_message {i : Instr} (hi : isMessage i = true) (n : Nat) (res : Except Error (List Byte)) :
    successSteps n (isError res) i = 2 + (1 + (34 * blocksFor n i + lastSteps i res)) := by
  cases i with
  | encipher | decipher => cases hi
  | encryptEcb | encryptCbc =>
    simp only [successSteps, lastSteps, unpads, blocksFor, Bool.false_and, Bool.false_eq_true, if_false]
    omega
  | decryptEcb skip | decryptCbc skip =>
    simp only [successSteps, lastSteps, unpads, blocksFor]
    cases skip <;> cases isError res <;> simp <;> omega

theorem successSteps_block {i : Instr} (hi : isMessage i = false) (n : Nat) (failed : Bool) :
    successSteps n failed i = 37 := by
  cases i with
  | encipher | decipher => rfl
  | encryptEcb | encryptCbc | decryptEcb | decryptCbc => cases hi

section

variable {i : Instr} {s : State}

/-- STORE and FINISH of a block command (R122, R180). -/
theorem execSteps_storeBlock (hp : s.phase = .store) (hi : isMessage i = false) :
    ∃ t, execSteps i 2 s = .next t ∧ t.phase = .respond ∧ t.rsp = some (okResponse (bytesOfBlock ⟨s.y, s.z⟩)) := by
  have hstore := exec_of_execNext (.storedBlock hp hi)
  have hread := Memory.readBytes_writeBytes (m := s.outBuf) (n := 0) (out := []) (v := bytesOfBlock ⟨s.y, s.z⟩) rfl
  rw [bytesOfBlock_length, List.nil_append] at hread
  obtain ⟨t, ht, hph, hrsp⟩ := exec_finish_ok (i := i)
    (s := s.stored (Memory.writeBytes s.outBuf 0 (bytesOfBlock ⟨s.y, s.z⟩)) 8 1 .finish) rfl hread
  exact ⟨t, (execSteps_succ hstore).trans (execSteps_one ht), hph, hrsp⟩

/-- A block command from LOAD: load, 32 rounds, store, finish (R122). -/
theorem execSteps_blockCommand (hp : s.phase = .load) (hi : isMessage i = false)
    (hacc : Accepted s.config.maxMsgBytes s.q i) (hq : s.q.wf = true) :
    ∃ k res t, keyOfBytes s.q.key = some k ∧ commandOutput k s.q i = some res ∧
      execSteps i 35 s = .next t ∧ t.phase = .respond ∧ t.rsp = some (responseOf res) := by
  obtain ⟨k, hk⟩ := hacc.key hq
  obtain ⟨b, hm, hb⟩ := hacc.blockData hq hi
  have hload := exec_of_execNext (.loadedBlock hp hi k _ b hk hm hb)
  have hcipher := execSteps_cipher (i := i) (s := s.loadedBlock k b (startSum i)) rfl rfl
  obtain ⟨t, ht, hph, hrsp⟩ := execSteps_storeBlock
    (s := roundsDone (enciphers i) (cipherBlock (enciphers i) k b) (s.loadedBlock k b (startSum i))) rfl hi
  refine ⟨k, _, t, hk, commandOutput_block k hi hb, ?_, hph, hrsp⟩
  rw [execSteps_succ hload, execSteps_add (m := 32) (n := 2) hcipher]
  exact ht

/-- A message command from LOAD: load, 34 steps for each block, and the steps after the last one (R176 to R180). -/
theorem execSteps_messageCommand (hp : s.phase = .load) (hi : isMessage i = true)
    (hacc : Accepted s.config.maxMsgBytes s.q i) (hq : s.q.wf = true) (hsmall : s.config.maxMsgBytes + 8 < 2 ^ 32) :
    ∃ k res t, keyOfBytes s.q.key = some k ∧ commandOutput k s.q i = some res ∧
      execSteps i (1 + (34 * blocksFor s.q.dataLen.toNat i + lastSteps i res)) s = .next t ∧
      t.phase = .respond ∧ t.rsp = some (responseOf res) := by
  obtain ⟨k, hk⟩ := hacc.key hq
  obtain ⟨iv, hiv⟩ := hacc.loadIv hq
  have hload := exec_of_execNext (.loadedMessage hp hi k iv hk hiv)
  obtain ⟨u, hblocks, hu⟩ := (blockLoop_loadMessage hacc hq hi hsmall k iv).run hi
  obtain ⟨t, hlast, hph, hrsp⟩ := hu.finish
  refine ⟨k, _, t, hk, commandOutput_message k hi hiv, ?_, hph, hrsp⟩
  rw [Nat.add_comm 1, execSteps_succ hload, ← blocksOf_inputOf_length hacc hq hi, execSteps_add hblocks]
  exact hlast

/-- Every command from LOAD: its result on RSP, in the steps of R244 less those of accept and VALIDATE. -/
theorem execSteps_command (hp : s.phase = .load) (hacc : Accepted s.config.maxMsgBytes s.q i) (hq : s.q.wf = true)
    (hsmall : s.config.maxMsgBytes + 8 < 2 ^ 32) :
    ∃ k res m t, keyOfBytes s.q.key = some k ∧ commandOutput k s.q i = some res ∧
      successSteps s.q.dataLen.toNat (isError res) i = 2 + m ∧
      execSteps i m s = .next t ∧ t.phase = .respond ∧ t.rsp = some (responseOf res) := by
  cases hi : isMessage i with
  | false =>
    obtain ⟨k, res, t, hk, hres, hrun, hph, hrsp⟩ := execSteps_blockCommand hp hi hacc hq
    exact ⟨k, res, 35, t, hk, hres, successSteps_block hi _ _, hrun, hph, hrsp⟩
  | true =>
    obtain ⟨k, res, t, hk, hres, hrun, hph, hrsp⟩ := execSteps_messageCommand hp hi hacc hq hsmall
    exact ⟨k, res, _, t, hk, hres, successSteps_message hi _ _, hrun, hph, hrsp⟩

end

/-! ### From IDLE to RESPOND -/

section

variable {s : State} {r : Request}

theorem step_validate (hp : s.phase = .validate) (hh : s.host = []) :
    step s = validateStep (validate s.config.maxMsgBytes s.q) s := by
  rw [step_noMove hh, engineStep_active (by rw [hp]; rfl), runLatched_validate hp]

/-- A request that VALIDATE rejects (R205, R244). -/
theorem steps_rejected (hp : s.phase = .idle) (hr : s.req = some r) (hh : s.host = []) {e : Error}
    (hv : validate s.config.maxMsgBytes r = some e) : steps 2 s = .next (errorState e (accept r s)) := by
  have hval : step (accept r s) = .next (errorState e (accept r s)) := by
    rw [step_validate (s := accept r s) rfl hh]
    exact congrArg (fun x => validateStep x (accept r s)) hv
  rw [steps_succ (step_accept hp hr hh), steps_succ hval, steps]

/-- A request that VALIDATE accepts: the result of its command on RSP, in the steps of R244. -/
theorem steps_accepted (hp : s.phase = .idle) (hr : s.req = some r) (hh : s.host = []) (hwf : r.wf = true)
    (hc : s.config.wf = true) (hv : validate s.config.maxMsgBytes r = none) :
    ∃ i res t, decode r.cmd = .instr i ∧ commandResult r = some res ∧
      (∀ e, res = .error e → e.kind = .badPadding) ∧
      steps (successSteps r.dataLen.toNat (isError res) i) s = .next t ∧ t.phase = .respond ∧
      t.rsp = some (responseOf res) ∧ SameRequest (accept r s) t := by
  obtain ⟨i, hd, hacc⟩ := decode_of_validate hv
  have hval : step (accept r s) = .next ((accept r s).toPhase .load) := by
    rw [step_validate (s := accept r s) rfl hh]
    exact congrArg (fun x => validateStep x (accept r s)) hv
  obtain ⟨k, res, m, t, hk, hres, hm, hrun, hph, hrsp⟩ :=
    execSteps_command (s := (accept r s).toPhase .load) rfl hacc hwf (capacity_lt_of_wf hc)
  refine ⟨i, res, t, hd, ?_, fun e he => commandOutput_error_kind (he ▸ hres), ?_, hph, hrsp, ?_⟩
  · simp only [commandResult, hd, show keyOfBytes r.key = some k from hk]
    exact hres
  · rw [show successSteps r.dataLen.toNat (isError res) i = m + 1 + 1 from hm.trans (by omega),
      steps_succ (step_accept hp hr hh), steps_succ hval]
    exact steps_eq_execSteps hh hd hrun
  · have haccept : SameRequest (accept r s) ((accept r s).toPhase .load) := ⟨rfl, rfl, rfl, rfl, rfl⟩
    exact haccept.trans (sameRequest_of_execSteps hrun)

end

/-! ### The table of R244 -/

section

variable {i : Instr} {n : Nat} {res : Except Error (List Byte)}

theorem unpads_of_pads (h : pads i = true) : unpads i = false := by
  cases i <;> simp_all [pads, unpads]

theorem pads_of_unpads (h : unpads i = true) : pads i = false := by
  cases i <;> simp_all [pads, unpads]

theorem successSteps_of_not_unpads (hi : isMessage i = true) (hu : unpads i = false) :
    successSteps n (isError res) i = 4 + 34 * blockCount (pads i) n := by
  rw [successSteps_message hi, blocksFor_message hi, lastSteps, hu]
  simp only [Bool.false_and, Bool.false_eq_true, if_false]
  omega

theorem successSteps_of_unpads (hu : unpads i = true) :
    successSteps n (isError res) i = (if isError res then 4 else 5) + 34 * (n / 8) := by
  have hi := isMessage_of_unpads hu
  rw [successSteps_message hi, blocksFor_message hi, lastSteps, hu, pads_of_unpads hu, blockCount]
  cases isError res <;> simp <;> omega

theorem stepCount_of_rejected {cap : Nat} {r : Request} {e : Error} (hv : validate cap r = some e) :
    stepCount cap r = 2 := by
  simp only [stepCount, hv]

theorem stepCount_of_accepted {cap : Nat} {r : Request} (hv : validate cap r = none) (hd : decode r.cmd = .instr i)
    (hres : commandResult r = some res) : stepCount cap r = successSteps r.dataLen.toNat (isError res) i := by
  simp only [stepCount, hv, hd, hres]
  cases res <;> rfl

end

/-- Settles O47: a rejected request by `steps_rejected`, an accepted one by `steps_accepted`; then R244's table. -/
theorem stepsReachTransact : Obligations.StepsReachTransact := by
  intro s r hp hr hh hwf hc cap n
  cases hv : validate cap r with
  | some e =>
    have hcount := stepCount_of_rejected hv
    refine ⟨errorState e (accept r s), errorResponse e, ?_, ?_, rfl, rfl, rfl, rfl, rfl, hh, fun _ => hcount, nofun⟩
    · rw [hcount]
      exact steps_rejected hp hr hh hv
    · simp only [transact, hv]
  | none =>
    obtain ⟨i, res, t, hd, hres, hkind, hrun, hph, hrsp, hf⟩ := steps_accepted hp hr hh hwf hc hv
    have hcount := stepCount_of_accepted hv hd hres
    refine ⟨t, responseOf res, hcount ▸ hrun, ?_, hph, hf.req, hrsp, hf.config, hf.taken, hf.host.trans hh, nofun,
      fun _ => ⟨i, hd, fun hi => ?_, fun hpad => ?_, fun hi hpad hu => ?_, fun hu => ?_⟩⟩
    · simp only [transact, hv, hres, Option.map_some]
    · rw [hcount, successSteps_block hi]
    · rw [hcount, successSteps_of_not_unpads (isMessage_of_pads hpad) (unpads_of_pads hpad), hpad]
      rfl
    · rw [hcount, successSteps_of_not_unpads hi hu, hpad]
      rfl
    · rw [hcount, successSteps_of_unpads hu]
      cases res with
      | ok out => exact .inl ⟨rfl, rfl⟩
      | error e => exact .inr ⟨by rw [responseOf, errorResponse, hkind e rfl]; rfl, rfl⟩

/-- Settles O48: both runs end in the response Transact gives the request (O47). -/
theorem responseDependsOnlyOnTheRequest : Obligations.ResponseDependsOnlyOnTheRequest := by
  intro s s' r hp hp' hr hr' hh hh' hwf hc hconfig
  obtain ⟨t, resp, hrun, htr, hph, -, hrsp, -⟩ := stepsReachTransact s r hp hr hh hwf hc
  obtain ⟨t', resp', hrun', htr', hph', -, hrsp', -⟩ := stepsReachTransact s' r hp' hr' hh' hwf (hconfig ▸ hc)
  rw [hconfig] at hrun' htr'
  obtain rfl : resp = resp' := Option.some.inj (htr.symm.trans htr')
  exact ⟨_, t, t', hrun, hrun', hph, hph', by rw [hrsp]; rfl, hrsp'.trans hrsp.symm⟩

end Sys2Proof.Machine

/-! SUPPORT. The command word as its five fields (30_encoding.md R70): the decoder, the encoder, the masks and the rows of
the opcode map read field by field, and the obligations about words (R78, R79, R82, R83, R87). -/

namespace Sys2Proof

open Machine

/-! ### Fields -/

theorem getLsbD_eq_of_field_eq {a b : Word} {start len n : Nat}
    (h : a.extractLsb' start len = b.extractLsb' start len) (hl : start ≤ n) (hu : n < start + len) :
    a.getLsbD n = b.getLsbD n := by
  have hbit := congrArg (·.getLsbD (n - start)) h
  simpa [BitVec.getLsbD_extractLsb', show n - start < len by omega, Nat.add_sub_cancel' hl] using hbit

/-- R70's fields make up the whole word. -/
theorem word_eq_iff_fields {a b : Word} :
    a = b ↔ cmdRsvd a = cmdRsvd b ∧ cmdOp a = cmdOp b ∧ cmdMode a = cmdMode b ∧ cmdSkip a = cmdSkip b ∧
      cmdIvp a = cmdIvp b := by
  constructor
  · rintro rfl
    exact ⟨rfl, rfl, rfl, rfl, rfl⟩
  · rintro ⟨hr, ho, hm, hs, hi⟩
    apply BitVec.eq_of_getLsbD_eq
    intro n hn
    obtain h | h | rfl | rfl | h : n < 4 ∨ (4 ≤ n ∧ n < 8) ∨ n = 8 ∨ n = 9 ∨ 10 ≤ n := by omega
    · exact getLsbD_eq_of_field_eq ho (by omega) h
    · exact getLsbD_eq_of_field_eq hm h.1 h.2
    · exact hs
    · exact hi
    · exact getLsbD_eq_of_field_eq hr h hn

theorem cmdRsvd_and (a b : Word) : cmdRsvd (a &&& b) = cmdRsvd a &&& cmdRsvd b := BitVec.extractLsb'_and

theorem cmdOp_and (a b : Word) : cmdOp (a &&& b) = cmdOp a &&& cmdOp b := BitVec.extractLsb'_and

theorem cmdMode_and (a b : Word) : cmdMode (a &&& b) = cmdMode a &&& cmdMode b := BitVec.extractLsb'_and

theorem cmdSkip_and (a b : Word) : cmdSkip (a &&& b) = (cmdSkip a && cmdSkip b) := BitVec.getLsbD_and

theorem cmdIvp_and (a b : Word) : cmdIvp (a &&& b) = (cmdIvp a && cmdIvp b) := BitVec.getLsbD_and

/-- What a mask that covers the reserved bits and OP, and MODE wholly or not at all, leaves of a word. -/
theorem masked_eq_iff_fields {w m p : Word} (mode : Bool) (hr : cmdRsvd m = BitVec.allOnes 22)
    (ho : cmdOp m = BitVec.allOnes 4) (hm : cmdMode m = if mode then BitVec.allOnes 4 else 0) :
    w &&& m = p ↔
      cmdRsvd w = cmdRsvd p ∧ cmdOp w = cmdOp p ∧ (if mode then cmdMode w else 0) = cmdMode p ∧
      (cmdSkip w && cmdSkip m) = cmdSkip p ∧ (cmdIvp w && cmdIvp m) = cmdIvp p := by
  rw [word_eq_iff_fields, cmdRsvd_and, cmdOp_and, cmdMode_and, cmdSkip_and, cmdIvp_and, hr, ho, hm,
    BitVec.and_allOnes, BitVec.and_allOnes]
  cases mode with
  | true => rw [if_pos rfl, if_pos rfl, BitVec.and_allOnes]
  | false => simp only [Bool.false_eq_true, if_false, BitVec.ofNat_eq_ofNat, BitVec.and_zero]

/-- The decoder on commands, both directions: the fields a command reads are those the encoder writes (R78, R79). -/
theorem decode_eq_instr_iff {c : Word} {i : Instr} :
    decode c = .instr i ↔
      cmdRsvd c = 0 ∧ cmdOp c = cmdOp (encode i) ∧
      (isMessage i = true → cmdMode c = cmdMode (encode i) ∧ cmdSkip c = cmdSkip (encode i)) ∧
      (chains i = true → cmdIvp c = cmdIvp (encode i)) := by
  constructor
  · intro h
    have hf := cmdFields_of_decode h
    cases i <;> simp_all [encode, isMessage, chains]
  · rintro ⟨hr, ho, hm, hi⟩
    cases i <;> simp_all [decode, encode, isMessage, chains]

/-- R78's masks, field by field. -/
theorem readMask_fields (i : Instr) :
    cmdRsvd (readMask i) = BitVec.allOnes 22 ∧ cmdOp (readMask i) = BitVec.allOnes 4 ∧
    cmdMode (readMask i) = (if isMessage i then BitVec.allOnes 4 else 0) ∧ cmdSkip (readMask i) = isMessage i ∧
    cmdIvp (readMask i) = chains i := by
  cases i <;> simp only [readMask, isMessage, chains] <;> decide

theorem masked_readMask_iff {w : Word} {i : Instr} : w &&& readMask i = encode i ↔ decode w = .instr i := by
  obtain ⟨hr, ho, hm, hs, hi⟩ := readMask_fields i
  rw [masked_eq_iff_fields _ hr ho hm, decode_eq_instr_iff, hs, hi]
  cases i <;> simp [encode, isMessage, chains, and_assoc]

/-- Settles O1: `decode_encode`, and the masked word compared with the encoder's field by field. -/
theorem decodeInvertsEncode : Obligations.DecodeInvertsEncode :=
  ⟨decode_encode, fun _ _ => masked_readMask_iff.symm⟩

/-! ### The opcode map -/

/-- R82's rows, field by field: a row leaves both operand bits open. -/
theorem rowOf_mask_fields (i : Instr) :
    cmdRsvd (rowOf i).mask = BitVec.allOnes 22 ∧ cmdOp (rowOf i).mask = BitVec.allOnes 4 ∧
    cmdMode (rowOf i).mask = (if isMessage i then BitVec.allOnes 4 else 0) ∧ cmdSkip (rowOf i).mask = false ∧
    cmdIvp (rowOf i).mask = false := by
  cases i <;> simp only [rowOf, isMessage] <;> decide

theorem rowOf_pattern (i : Instr) :
    (rowOf i).pattern = cmdWord (cmdOp (encode i)) (cmdMode (encode i)) false false := by
  cases i <;> simp only [encode, cmdOp_cmdWord, cmdMode_cmdWord] <;> rfl

theorem rowOf_selects_iff {i : Instr} {w : Word} :
    (rowOf i).selects w = true ↔
      cmdRsvd w = 0 ∧ cmdOp w = cmdOp (encode i) ∧ (isMessage i = true → cmdMode w = cmdMode (encode i)) := by
  obtain ⟨hr, ho, hm, hs, hi⟩ := rowOf_mask_fields i
  rw [OpcodeRow.selects, beq_iff_eq, masked_eq_iff_fields _ hr ho hm, hs, hi, rowOf_pattern]
  cases i <;> simp [encode, isMessage]

/-- The command of `i`'s row with the operand bits of `w` (R73, R74). -/
def withOperandsOf (w : Word) : Instr → Instr
  | .encipher => .encipher
  | .decipher => .decipher
  | .encryptEcb _ => .encryptEcb (cmdSkip w)
  | .encryptCbc _ _ => .encryptCbc (cmdSkip w) (cmdIvp w)
  | .decryptEcb _ => .decryptEcb (cmdSkip w)
  | .decryptCbc _ _ => .decryptCbc (cmdSkip w) (cmdIvp w)

theorem rowOf_withOperandsOf (w : Word) (i : Instr) : rowOf (withOperandsOf w i) = rowOf i := by
  cases i <;> rfl

theorem rowOf_selects_of_decode {w : Word} {i : Instr} (h : decode w = .instr i) : (rowOf i).selects w = true := by
  obtain ⟨hr, ho, hm, -⟩ := decode_eq_instr_iff.mp h
  exact rowOf_selects_iff.mpr ⟨hr, ho, fun hi => (hm hi).1⟩

theorem decode_of_rowOf_selects {w : Word} {i : Instr} (h : (rowOf i).selects w = true) :
    decode w = .instr (withOperandsOf w i) := by
  obtain ⟨hr, ho, hm⟩ := rowOf_selects_iff.mp h
  rw [decode_eq_instr_iff]
  cases i <;> simp_all [withOperandsOf, encode, isMessage, chains]

theorem mem_opcodeMap {r : OpcodeRow} : r ∈ opcodeMap ↔ ∃ i, rowOf i = r := by
  constructor
  · intro h
    simp only [opcodeMap, List.mem_cons, List.not_mem_nil, or_false] at h
    obtain rfl | rfl | rfl | rfl | rfl | rfl := h <;> exact ⟨_, rfl⟩
  · rintro ⟨i, rfl⟩
    cases i <;> simp [opcodeMap, rowOf]

/-- A row of the map is selected exactly where the decoder gives a command of that row (R82). -/
theorem selects_iff_decode {w : Word} {r : OpcodeRow} (hr : r ∈ opcodeMap) :
    r.selects w = true ↔ ∃ i, decode w = .instr i ∧ rowOf i = r := by
  constructor
  · intro h
    obtain ⟨i, rfl⟩ := mem_opcodeMap.mp hr
    exact ⟨_, decode_of_rowOf_selects h, rowOf_withOperandsOf w i⟩
  · rintro ⟨i, hd, rfl⟩
    exact rowOf_selects_of_decode hd

/-- Settles O2: a row is selected where the decoder gives its command, and the decoder gives one command only. -/
theorem opcodeRowsAreDisjoint : Obligations.OpcodeRowsAreDisjoint := by
  refine ⟨fun w r r' hr hr' h h' => ?_, fun w r => selects_iff_decode⟩
  obtain ⟨i, hi, rfl⟩ := (selects_iff_decode hr).mp h
  obtain ⟨j, hj, rfl⟩ := (selects_iff_decode hr').mp h'
  rw [Decoded.instr.inj (hi.symm.trans hj)]

/-! ### Words that are no command -/

theorem op_outside_iff : ∀ o : BitVec 4, ¬(o = 1 ∨ o = 2 ∨ o = 3 ∨ o = 4) ↔ o = 0 ∨ 5 ≤ o.toNat := by decide

theorem mode_outside_iff : ∀ m : BitVec 4, ¬(m = 0 ∨ m = 1) ↔ 2 ≤ m.toNat := by decide

theorem decode_eq_illegal_iff {c d : Word} :
    decode c = .illegal d ↔ c = d ∧ (cmdRsvd c ≠ 0 ∨ cmdOp c = 0 ∨ 5 ≤ (cmdOp c).toNat) := by
  rw [← op_outside_iff]
  unfold decode
  split_ifs <;> simp_all

theorem decode_eq_unsupported_iff {c : Word} {m : BitVec 4} :
    decode c = .unsupported m ↔
      cmdMode c = m ∧ cmdRsvd c = 0 ∧ (cmdOp c = 3 ∨ cmdOp c = 4) ∧ 2 ≤ (cmdMode c).toNat := by
  rw [← mode_outside_iff]
  unfold decode
  split_ifs <;> simp_all

theorem no_row_iff_no_command {w : Word} :
    (∀ r ∈ opcodeMap, r.selects w = false) ↔ ∀ i, decode w ≠ .instr i := by
  constructor
  · intro h i hd
    have hsel := rowOf_selects_of_decode hd
    rw [h _ (mem_opcodeMap.mpr ⟨i, rfl⟩)] at hsel
    cases hsel
  · intro h r hr
    rw [Bool.eq_false_iff]
    intro hsel
    obtain ⟨i, hd, -⟩ := (selects_iff_decode hr).mp hsel
    exact h i hd

/-- Settles O3: the two refusals by their fields, each with the error VALIDATE raises for it. -/
theorem everyWordHasOneOutcome : Obligations.EveryWordHasOneOutcome := by
  refine fun cap q => ⟨no_row_iff_no_command, fun h => ?_, fun h => ?_, fun h => ?_⟩
  · have hd := decode_eq_illegal_iff.mpr ⟨rfl, h⟩
    exact ⟨hd, validate_of_illegal hd⟩
  · have hd := decode_eq_unsupported_iff.mpr ⟨rfl, h⟩
    exact ⟨hd, validate_of_unsupported hd⟩
  · cases hd : decode q.cmd with
    | instr i => exact absurd hd (h i)
    | illegal c => exact .inl (decode_eq_illegal_iff.mp hd).2
    | unsupported m => exact .inr (decode_eq_unsupported_iff.mp hd).2

/-- Settles O4: each of R87's words evaluated. -/
theorem exampleWordsDecode : Obligations.ExampleWordsDecode := by
  unfold Obligations.ExampleWordsDecode
  decide

end Sys2Proof

/-! SUPPORT. `Transact(Q)` reads of Q.CMD only the command it decodes to, and the IV fields only where that command reads an
IV (30_encoding.md R78). -/

namespace Sys2Proof.Machine

/-- `Transact(Q)` once Q.CMD is decoded (R38). -/
def transactCommand (cap : Nat) (q : Request) (i : Instr) : Option Response :=
  match operandError cap q i with
  | some e => some (errorResponse e)
  | none => ((keyOfBytes q.key).bind fun k => commandOutput k q i).map responseOf

theorem transact_of_decode {cap : Nat} {q : Request} {i : Instr} (h : decode q.cmd = .instr i) :
    transact cap q = transactCommand cap q i := by
  simp only [transact, transactCommand, operandError_eq_validate h, commandResult, h]
  cases keyOfBytes q.key <;> rfl

theorem transactCommand_cmd (cap : Nat) (q : Request) (i : Instr) (cmd : Word) :
    transactCommand cap { q with cmd := cmd } i = transactCommand cap q i := by
  cases i <;> rfl

theorem transactCommand_iv {i : Instr} (hi : readsIv i = false) (cap : Nat) (q : Request) (iv : List Byte)
    (ivLen : BitVec 32) : transactCommand cap { q with iv := iv, ivLen := ivLen } i = transactCommand cap q i := by
  cases i with
  | encipher | decipher | encryptEcb | decryptEcb => rfl
  | encryptCbc skip ivp | decryptCbc skip ivp =>
    obtain rfl : ivp = false := hi
    rfl

/-- Settles O49: both requests decode to `i`, and `transactCommand` sees neither the word nor an unread IV. -/
theorem unreadFieldsHaveNoEffect : Obligations.UnreadFieldsHaveNoEffect := by
  refine fun cap q i cmd' iv' ivLen' hd hd' => ⟨?_, fun hi => ?_⟩
  · rw [transact_of_decode (q := { q with cmd := cmd' }) hd', transactCommand_cmd, transact_of_decode hd]
  · rw [transact_of_decode (q := { q with iv := iv', ivLen := ivLen' }) hd, transactCommand_iv hi,
      transact_of_decode hd]

end Sys2Proof.Machine

/-! SUPPORT. The assembler, read as a writer of commands: which command a mnemonic with its suffixes stands for, where `iv=`
is accepted, and which bytes an operand is (30_encoding.md R84, R85). -/

namespace Sys2Proof.Machine

/-! ### The command a mnemonic stands for -/

/-- The command of a mnemonic with its suffixes; `ivp` says that an `iv=` operand is written (R84, R85). -/
def writtenInstr (ivp : Bool) : AsmMnemonic → Instr
  | .encipher => .encipher
  | .decipher => .decipher
  | .encrypt none skip => .encryptEcb skip
  | .encrypt (some .ecb) skip => .encryptEcb skip
  | .encrypt (some .cbc) skip => .encryptCbc skip ivp
  | .decrypt none skip => .decryptEcb skip
  | .decrypt (some .ecb) skip => .decryptEcb skip
  | .decrypt (some .cbc) skip => .decryptCbc skip ivp

/-- `.CBC` is written, the one suffix that accepts `iv=` (R84). -/
def acceptsIv (m : AsmMnemonic) : Prop := ∃ skip, m = .encrypt (some .cbc) skip ∨ m = .decrypt (some .cbc) skip

theorem asmWord_eq_some {m : AsmMnemonic} {ivp : Bool} {w : Word} :
    asmWord m ivp = some w ↔ (ivp = true → acceptsIv m) ∧ w = encode (writtenInstr ivp m) := by
  cases m with
  | encipher | decipher => cases ivp <;> simp [asmWord, acceptsIv, writtenInstr, encode, eq_comm]
  | encrypt mode skip | decrypt mode skip =>
    obtain _ | _ | _ := mode <;> cases ivp <;>
      simp [asmWord, asmModeField, acceptsIv, writtenInstr, encode, eq_comm]

theorem cmdRsvd_encode (i : Instr) : cmdRsvd (encode i) = 0 := by
  cases i <;> exact cmdRsvd_cmdWord _ _ _ _

theorem cmdIvp_encode (i : Instr) : cmdIvp (encode i) = readsIv i := by
  cases i <;> exact cmdIvp_cmdWord _ _ _ _

theorem readsIv_writtenInstr {m : AsmMnemonic} {ivp : Bool} (h : ivp = true → acceptsIv m) :
    readsIv (writtenInstr ivp m) = ivp := by
  cases ivp with
  | true => obtain ⟨skip, rfl | rfl⟩ := h rfl <;> rfl
  | false =>
    cases m with
    | encipher | decipher => rfl
    | encrypt mode skip | decrypt mode skip => obtain _ | _ | _ := mode <;> rfl

theorem encode_writtenInstr_encrypt (mode : Option AsmMode) (skip ivp : Bool) :
    cmdOp (encode (writtenInstr ivp (.encrypt mode skip))) = 3 ∧
    cmdMode (encode (writtenInstr ivp (.encrypt mode skip))) = (if mode = some .cbc then 1 else 0) ∧
    cmdSkip (encode (writtenInstr ivp (.encrypt mode skip))) = skip := by
  obtain _ | _ | _ := mode <;> simp [writtenInstr, encode]

theorem encode_writtenInstr_decrypt (mode : Option AsmMode) (skip ivp : Bool) :
    cmdOp (encode (writtenInstr ivp (.decrypt mode skip))) = 4 ∧
    cmdMode (encode (writtenInstr ivp (.decrypt mode skip))) = (if mode = some .cbc then 1 else 0) ∧
    cmdSkip (encode (writtenInstr ivp (.decrypt mode skip))) = skip := by
  obtain _ | _ | _ := mode <;> simp [writtenInstr, encode]

/-! ### The bytes of an operand -/

theorem hexDigit_digitChar : ∀ n < 16, hexDigit (Nat.digitChar n) = some n := by decide

/-- Two hex digits per byte, in order (R84). -/
theorem hexBytes_digits (b : List Byte) :
    hexBytes (b.flatMap fun x => [Nat.digitChar (x.toNat / 16), Nat.digitChar (x.toNat % 16)]) = some b := by
  induction b with
  | nil => rfl
  | cons x xs ih =>
    have hx : BitVec.ofNat 8 (16 * (x.toNat / 16) + x.toNat % 16) = x := by
      rw [Nat.div_add_mod, BitVec.ofNat_toNat, BitVec.setWidth_eq]
    simp only [List.flatMap_cons, List.cons_append, List.nil_append, hexBytes, ih,
      hexDigit_digitChar _ (show x.toNat / 16 < 16 by omega),
      hexDigit_digitChar _ (show x.toNat % 16 < 16 by omega), hx]

/-- Quoted text is its ASCII codes (R84). -/
theorem textBytes_ascii {cs : List Char} (h : ∀ c ∈ cs, c.toNat < 128) :
    textBytes cs = some (cs.map fun c => BitVec.ofNat 8 c.toNat) := by
  induction cs with
  | nil => rfl
  | cons c cs ih =>
    obtain ⟨hc, hcs⟩ := List.forall_mem_cons.mp h
    simp only [textBytes, ih hcs, if_pos hc, List.map_cons]

/-! ### The assembled request -/

section

variable {a : AsmCommand} {r : Request}

theorem assemble_cmd (h : assemble a = some r) :
    (a.iv.isSome = true → acceptsIv a.mnemonic) ∧ r.cmd = encode (writtenInstr a.iv.isSome a.mnemonic) :=
  asmWord_eq_some.mp (assemble_eq_some.mp h).1

theorem assemble_wf (h : assemble a = some r) : r.wf = true := by
  obtain ⟨-, -, -, -, hkey, hiv, hdata⟩ := assemble_eq_some.mp h
  exact Request.wf_iff.mpr
    ⟨(lengthField_toNat hkey).symm, (lengthField_toNat hiv).symm, (lengthField_toNat hdata).symm⟩

theorem assemble_without_iv (h : assemble a = some r) (hiv : a.iv = none) : r.ivLen = 0 ∧ r.iv = [] := by
  obtain ⟨-, -, hbytes, -, -, hlen, -⟩ := assemble_eq_some.mp h
  rw [hiv] at hbytes
  have hnil : r.iv = [] := (Option.some.inj hbytes).symm
  exact ⟨by rw [(lengthField_eq_some.mp hlen).2, hnil]; rfl, hnil⟩

end

/-- `iv=` is rejected where the mnemonic does not accept it (R84). -/
theorem assemble_rejects_iv {a : AsmCommand} (hiv : a.iv.isSome = true) (hm : ¬acceptsIv a.mnemonic) :
    assemble a = none :=
  Option.eq_none_iff_forall_ne_some.mpr fun _ h => hm ((assemble_cmd h).1 hiv)

/-- Everything else whose operands are readable and fit their length fields assembles (R84). -/
theorem assemble_accepts {a : AsmCommand} {key iv data : List Byte} (hk : asmBytes a.key = some key)
    (hv : asmIv a.iv = some iv) (hd : asmBytes a.data = some data) (lk : key.length < 2 ^ 32)
    (lv : iv.length < 2 ^ 32) (ld : data.length < 2 ^ 32) (hm : a.iv.isSome = true → acceptsIv a.mnemonic) :
    ∃ r, assemble a = some r :=
  ⟨⟨encode (writtenInstr a.iv.isSome a.mnemonic), BitVec.ofNat 32 key.length, key, BitVec.ofNat 32 iv.length, iv,
      BitVec.ofNat 32 data.length, data⟩,
    assemble_eq_some.mpr ⟨asmWord_eq_some.mpr ⟨hm, rfl⟩, hk, hv, hd, lengthField_eq_some.mpr ⟨lk, rfl⟩,
      lengthField_eq_some.mpr ⟨lv, rfl⟩, lengthField_eq_some.mpr ⟨ld, rfl⟩⟩⟩

/-- Settles O5: the word is the encoder's of `writtenInstr`, and the operands' bytes are `assemble_eq_some`'s. -/
theorem assemblerFollowsTheSyntax : Obligations.AssemblerFollowsTheSyntax := by
  refine ⟨fun a r h => ?_, fun a hiv hm => ?_, fun a key iv data hk hv hd lk lv ld hm => ?_, hexBytes_digits,
    fun cs => textBytes_ascii⟩
  · obtain ⟨hiv, hcmd⟩ := assemble_cmd h
    obtain ⟨-, hkey, hivBytes, hdata, -⟩ := assemble_eq_some.mp h
    refine ⟨assemble_wf h, ⟨_, hcmd, hcmd ▸ decode_encode _⟩, hcmd ▸ cmdRsvd_encode _, ?_, ?_, hkey, hivBytes,
      hdata, assemble_without_iv h, fun skip hm => ?_, fun skip hm => ?_⟩
    · rw [hcmd]
      cases a.mnemonic with
      | encipher | decipher => exact ⟨cmdOp_cmdWord _ _ _ _, cmdMode_cmdWord _ _ _ _, cmdSkip_cmdWord _ _ _ _⟩
      | encrypt mode skip => exact encode_writtenInstr_encrypt mode skip _
      | decrypt mode skip => exact encode_writtenInstr_decrypt mode skip _
    · rw [hcmd, cmdIvp_encode, readsIv_writtenInstr hiv]
    · rw [hcmd, hm, writtenInstr]
    · rw [hcmd, hm, writtenInstr]
  · refine assemble_rejects_iv hiv ?_
    rintro ⟨skip, h | h⟩
    · exact (hm skip).1 h
    · exact (hm skip).2 h
  · exact assemble_accepts hk hv hd lk lv ld hm

end Sys2Proof.Machine

/-! SUPPORT. The word codec in both directions: a sequence reads as a word or a block exactly when it is that word's or
block's bytes (40_word_codec.md R100 to R105), and XOR goes through the codec (R107). -/

namespace Sys2Proof.Machine

/-! ### Words -/

theorem extractLsb'_shiftLeft_same (b : Byte) {k : Nat} (hk : k ≤ 24) :
    (b.setWidth 32 <<< k).extractLsb' k 8 = b := by
  apply BitVec.eq_of_getLsbD_eq
  intro n hn
  simp [hn, show k + n < 32 by omega]

theorem extractLsb'_shiftLeft_other (b : Byte) {k start : Nat} (h : start + 8 ≤ k ∨ k + 8 ≤ start) :
    (b.setWidth 32 <<< k).extractLsb' start 8 = 0#8 := by
  apply BitVec.eq_of_getLsbD_eq
  intro n hn
  rcases h with h | h
  · simp [show start + n < k by omega]
  · simp [b.getLsbD_of_ge (start + n - k) (by omega)]

/-- B undoes W: each byte is shifted to the place B reads it from, clear of the others (R100, R101). -/
@[simp] theorem bytesOfWord_word4 (a b c d : Byte) : bytesOfWord (word4 a b c d) = [a, b, c, d] := by
  have hd : d.setWidth 32 = d.setWidth 32 <<< 0 := (BitVec.shiftLeft_zero _).symm
  rw [bytesOfWord, word4, hd]
  simp only [BitVec.extractLsb'_or, extractLsb'_shiftLeft_same, extractLsb'_shiftLeft_other, Nat.reduceAdd,
    Nat.reduceLeDiff, or_true, true_or, BitVec.zero_or, BitVec.or_zero]

/-- A word is its four bytes. -/
theorem bytesOfWord_injective : Function.Injective bytesOfWord := by
  intro v w h
  simp only [bytesOfWord, List.cons.injEq, and_true] at h
  obtain ⟨h24, h16, h8, h0⟩ := h
  apply BitVec.eq_of_getLsbD_eq
  intro n hn
  obtain h | h | h | h : n < 8 ∨ (8 ≤ n ∧ n < 16) ∨ (16 ≤ n ∧ n < 24) ∨ 24 ≤ n := by omega
  · exact getLsbD_eq_of_field_eq h0 (by omega) h
  · exact getLsbD_eq_of_field_eq h8 h.1 h.2
  · exact getLsbD_eq_of_field_eq h16 h.1 h.2
  · exact getLsbD_eq_of_field_eq h24 h hn

/-- W undoes B: the word made of w's bytes has w's bytes (R102). -/
@[simp] theorem word4_extractLsb' (w : Word) :
    word4 (w.extractLsb' 24 8) (w.extractLsb' 16 8) (w.extractLsb' 8 8) (w.extractLsb' 0 8) = w :=
  bytesOfWord_injective (bytesOfWord_word4 _ _ _ _)

@[simp] theorem wordOfBytes_bytesOfWord (w : Word) : wordOfBytes (bytesOfWord w) = some w :=
  congrArg some (word4_extractLsb' w)

theorem wordOfBytes_eq_some_iff {s : List Byte} {w : Word} : wordOfBytes s = some w ↔ bytesOfWord w = s := by
  constructor
  · intro h
    unfold wordOfBytes at h
    split at h
    · rw [← Option.some.inj h, bytesOfWord_word4]
    · cases h
  · rintro rfl
    exact wordOfBytes_bytesOfWord w

theorem bytesOfWord_xor (v w : Word) :
    bytesOfWord (v ^^^ w) = List.zipWith (· ^^^ ·) (bytesOfWord v) (bytesOfWord w) := by
  simp only [bytesOfWord, BitVec.extractLsb'_xor, List.zipWith_cons_cons, List.zipWith_nil_left]

/-! ### Blocks -/

theorem blockOfBytes_eq_some_iff {s : List Byte} {b : Block} : blockOfBytes s = some b ↔ bytesOfBlock b = s := by
  constructor
  · intro h
    match s, blockOfBytes_length h with
    | [s₀, s₁, s₂, s₃, s₄, s₅, s₆, s₇], _ =>
      rw [← Option.some.inj h, bytesOfBlock, bytesOfWord_word4, bytesOfWord_word4]
      rfl
  · rintro rfl
    exact congrArg₂ (fun v w => some (Block.mk v w)) (word4_extractLsb' b.v0) (word4_extractLsb' b.v1)

theorem bytesOfBlock_xorBlock (x y : Block) :
    bytesOfBlock (xorBlock x y) = List.zipWith (· ^^^ ·) (bytesOfBlock x) (bytesOfBlock y) := by
  simp only [bytesOfBlock, xorBlock, bytesOfWord_xor]
  exact (List.zipWith_append (by rw [bytesOfWord_length, bytesOfWord_length])).symm

/-! ### The obligations -/

/-- Settles O6, by the codec's `↔` of each size. -/
theorem codecIsInvertible : Obligations.CodecIsInvertible := by
  refine ⟨wordOfBytes_bytesOfWord, fun s hs => ?_, fun s hs => ?_⟩
  · exact (wordOfBytes_eq_some hs).imp fun w hw => ⟨hw, wordOfBytes_eq_some_iff.mp hw⟩
  · exact (blockOfBytes_eq_some hs).imp fun b hb => ⟨hb, blockOfBytes_eq_some_iff.mp hb⟩

/-- Settles O8: a and b are the bytes of the blocks they load as, and `bytesOfBlock_xorBlock` is about those. -/
theorem wordXorIsByteXor : Obligations.WordXorIsByteXor := by
  intro a b ha hb
  obtain ⟨x, hx⟩ := blockOfBytes_eq_some ha
  obtain ⟨y, hy⟩ := blockOfBytes_eq_some hb
  refine ⟨x, y, hx, hy, ?_⟩
  rw [bytesOfBlock_xorBlock, blockOfBytes_eq_some_iff.mp hx, blockOfBytes_eq_some_iff.mp hy]

/-- Settles O7: the bytes of a word are `bytesOfWord_word4`'s; keys, blocks and IVs are loaded 4 bytes at a time. -/
theorem operandWordsAreBigEndian : Obligations.OperandWordsAreBigEndian := by
  refine ⟨fun a b c d => ⟨word4 a b c d, rfl, ?_⟩, ?_, ?_, ?_⟩
  · simpa only [bytesOfWord, List.cons.injEq, and_true] using bytesOfWord_word4 a b c d
  · intros; rfl
  · intros; rfl
  · exact fun _ => ⟨rfl, rfl⟩

end Sys2Proof.Machine

/-! SUPPORT. The round engine as a permutation (41_round_engine.md R111 to R118): the key indices as numbers of SUM, SUM
after any number of rounds, and each direction undoing the other. -/

namespace Sys2Proof.Machine

/-! ### Key indices -/

theorem toNat_and_three (w : Word) : (w &&& 3).toNat = w.toNat % 4 :=
  Nat.and_two_pow_sub_one_eq_mod w.toNat 2

theorem yIndex_val (w : Word) : (yIndex w).val = w.toNat % 4 := by
  rw [yIndex, Fin.val_ofNat, toNat_and_three, Nat.mod_mod]

theorem zIndex_val (w : Word) : (zIndex w).val = w.toNat / 2048 % 4 := by
  rw [zIndex, Fin.val_ofNat, toNat_and_three, Nat.mod_mod, BitVec.toNat_ushiftRight, Nat.shiftRight_eq_div_pow]

/-- Settles O13: `& 3` is the remainder by 4, `>> 11` the quotient by 2048. -/
theorem keyIndicesComeFromSum : Obligations.KeyIndicesComeFromSum :=
  fun _ w => ⟨yIndex_val w, zIndex_val w, rfl, rfl, rfl, rfl⟩

/-! ### SUM counts the rounds -/

theorem cipherRound_sum (enc : Bool) (k : Key) (r : RoundRegs) : (cipherRound enc k r).sum = sumAfter enc r.sum := by
  cases enc <;> rfl

/-- `n` rounds take SUM from `m + n` rounds left to `m` rounds left. -/
theorem cipherRounds_sum (enc : Bool) (k : Key) {m n : Nat} (h : m + n ≤ 32) {r : RoundRegs}
    (hr : r.sum = sumWithRoundsLeft enc (m + n)) : (cipherRounds enc k n r).sum = sumWithRoundsLeft enc m := by
  induction n generalizing r with
  | zero => cases enc <;> exact hr
  | succ n ih =>
    rw [cipherRounds_succ]
    refine ih (by omega) ?_
    rw [cipherRound_sum, hr, ← Nat.add_assoc, sumAfter_sumWithRoundsLeft enc (by omega)]

/-- The loop's test holds at no earlier round, the first included (R114, R117). -/
theorem sumWithRoundsLeft_eq_last_iff (enc : Bool) {n : Nat} (hn : n ≤ 32) :
    sumWithRoundsLeft enc n = sumWithRoundsLeft enc 0 ↔ n = 0 := by
  obtain hlt | rfl := hn.lt_or_eq
  · exact sumWithRoundsLeft_eq_last enc hlt
  · cases enc <;> decide

/-- From the first SUM, the loop's test holds after 32 rounds and after no fewer. -/
theorem cipherRounds_sum_eq_last_iff (enc : Bool) (k : Key) {n : Nat} (hn : n ≤ 32) {r : RoundRegs}
    (hr : r.sum = sumWithRoundsLeft enc 32) :
    (cipherRounds enc k n r).sum = sumWithRoundsLeft enc 0 ↔ n = 32 := by
  rw [cipherRounds_sum enc k (m := 32 - n) (by omega) (by rwa [Nat.sub_add_cancel hn]),
    sumWithRoundsLeft_eq_last_iff enc (Nat.sub_le 32 n)]
  omega

theorem sumWithRoundsLeft_opposite (enc : Bool) : sumWithRoundsLeft (!enc) 32 = sumWithRoundsLeft enc 0 := by
  cases enc <;> decide

theorem sumWithRoundsLeft_true_zero : sumWithRoundsLeft true 0 = limit := by decide

theorem sumWithRoundsLeft_true_start : sumWithRoundsLeft true 32 = 0 := by decide

theorem sumWithRoundsLeft_false_zero : sumWithRoundsLeft false 0 = 0 := by decide

theorem sumWithRoundsLeft_false_start : sumWithRoundsLeft false 32 = limit := by decide

/-- Settles O11, by `cipherRounds_sum` in each direction: `n` rounds done are `32 - n` rounds left. -/
theorem sumCountsTheRounds : Obligations.SumCountsTheRounds := by
  intro k y z n hn
  have hleft : 32 - n + n = 32 := Nat.sub_add_cancel hn
  have henc := cipherRounds_sum true k (m := 32 - n) (n := n) (r := ⟨y, z, 0⟩) (by omega)
    (by rw [hleft, sumWithRoundsLeft_true_start])
  have hdec := cipherRounds_sum false k (m := 32 - n) (n := n) (r := ⟨y, z, limit⟩) (by omega)
    (by rw [hleft, sumWithRoundsLeft_false_start])
  refine ⟨?_, ?_, hdec, ?_⟩
  · rw [sumWithRoundsLeft, if_pos rfl, Nat.sub_sub_self hn] at henc
    exact henc
  · exact sumWithRoundsLeft_true_zero ▸
      cipherRounds_sum_eq_last_iff true k hn (r := ⟨y, z, 0⟩) sumWithRoundsLeft_true_start.symm
  · exact sumWithRoundsLeft_false_zero ▸
      cipherRounds_sum_eq_last_iff false k hn (r := ⟨y, z, limit⟩) sumWithRoundsLeft_false_start.symm

/-! ### Each direction undoes the other (R118) -/

/-- The opposite round restores SUM, and each half-round's mix is recomputed from the same words and cancels. -/
theorem cipherRound_opposite (enc : Bool) (k : Key) (r : RoundRegs) :
    cipherRound (!enc) k (cipherRound enc k r) = r := by
  cases enc with
  | true => simp [cipherRound, encRound, decRound]
  | false => simp [cipherRound, encRound, decRound]

theorem cipherRounds_eq_iterate (enc : Bool) (k : Key) (n : Nat) :
    cipherRounds enc k n = (cipherRound enc k)^[n] := by
  induction n with
  | zero => cases enc <;> rfl
  | succ n ih =>
    funext r
    rw [cipherRounds_succ, ih, Function.iterate_succ_apply]

theorem cipherRounds_opposite (enc : Bool) (k : Key) (n : Nat) (r : RoundRegs) :
    cipherRounds (!enc) k n (cipherRounds enc k n r) = r := by
  simp only [cipherRounds_eq_iterate]
  exact Function.LeftInverse.iterate (cipherRound_opposite enc k) n r

theorem cipherBlock_eq_rounds_from_start (enc : Bool) (k : Key) (b : Block) :
    cipherBlock enc k b = (cipherRounds enc k 32 ⟨b.v0, b.v1, sumWithRoundsLeft enc 32⟩).block := by
  cases enc with
  | true => exact startSum_eq .encipher ▸ cipherBlock_eq_rounds .encipher k b
  | false => exact startSum_eq .decipher ▸ cipherBlock_eq_rounds .decipher k b

/-- The last SUM of one direction is the first of the other, so the opposite direction starts where this one ended. -/
theorem cipherBlock_opposite (enc : Bool) (k : Key) (b : Block) : cipherBlock (!enc) k (cipherBlock enc k b) = b := by
  have hsum : (cipherRounds enc k 32 ⟨b.v0, b.v1, sumWithRoundsLeft enc 32⟩).sum = sumWithRoundsLeft (!enc) 32 :=
    (cipherRounds_sum enc k (m := 0) le_rfl rfl).trans (sumWithRoundsLeft_opposite enc).symm
  rw [cipherBlock_eq_rounds_from_start enc, cipherBlock_eq_rounds_from_start (!enc), ← hsum]
  exact congrArg RoundRegs.block (cipherRounds_opposite enc k 32 _)

/-- Settles O12: a left inverse on both sides, for one round and for a block, is `cipher…_opposite` in each direction. -/
theorem encipherAndDecipherAreInverse : Obligations.EncipherAndDecipherAreInverse := by
  intro k
  have hdec : ∀ b, decipher k (encipher k b) = b := cipherBlock_opposite true k
  have henc : ∀ b, encipher k (decipher k b) = b := cipherBlock_opposite false k
  exact ⟨cipherRound_opposite true k, cipherRound_opposite false k, hdec, henc,
    Function.bijective_iff_has_inverse.mpr ⟨decipher k, hdec, henc⟩,
    Function.bijective_iff_has_inverse.mpr ⟨encipher k, henc, hdec⟩⟩

end Sys2Proof.Machine

/-! SUPPORT. The block commands ENCIPHER and DECIPHER step by step, and as a whole (R120 to R123, R180). -/

namespace Sys2Proof.Machine

/-! ### The ROUND step -/

/-- Settles O14: `roundState` of an enciphering command, with `encRound` written out. -/
theorem roundStepEnciphers : Obligations.RoundStepEnciphers := by
  intro s i hp he
  rw [exec_round hp, he, roundState, sumWithRoundsLeft_true_zero]
  rfl

/-- Settles O15: `roundState` of a deciphering command, with `decRound` written out. -/
theorem roundStepDeciphers : Obligations.RoundStepDeciphers := by
  intro s i hp he
  rw [exec_round hp, he, roundState, sumWithRoundsLeft_false_zero]
  rfl

/-! ### LOAD and STORE -/

theorem accepted_block {i : Instr} (hi : isMessage i = false) {q : Request} (hk : q.keyLen = 16) (hd : q.dataLen = 8)
    (cap : Nat) : Accepted cap q i :=
  operandError_eq_none.mp ((operandError_block hi cap q).trans (blockCommandError_eq_none.mpr ⟨hk, hd⟩))

/-- Settles O17: the key and the block load for either command, and only SUM depends on which. -/
theorem loadStepOfBlockCommands : Obligations.LoadStepOfBlockCommands := by
  intro s hp hq hkey hdata
  have hacc := accepted_block (i := .encipher) rfl hkey hdata s.config.maxMsgBytes
  obtain ⟨k, hk⟩ := hacc.key hq
  obtain ⟨b, hm, hb⟩ := hacc.blockData hq rfl
  have hload : ∀ i, isMessage i = false → exec i s = .next (s.loadedBlock k b (startSum i)) :=
    fun i hi => exec_of_execNext (.loadedBlock hp hi k _ b hk hm hb)
  exact ⟨k, b, hk, hb, hload .encipher rfl, hload .decipher rfl⟩

/-- Settles O20: the bytes of the block go to 0 .. 7, and `Memory.read_writeBytes` reads them back. -/
theorem storeStepOfBlockCommands : Obligations.StoreStepOfBlockCommands := by
  intro s i hp hi
  refine ⟨_, exec_of_execNext (.storedBlock hp hi), fun a => ?_⟩
  simp only [Memory.read_writeBytes, bytesOfBlock_length, Nat.zero_le, true_and, Nat.zero_add, Nat.sub_zero]
  rfl

/-! ### The whole command -/

theorem execSteps_blockCommand_from_validate {i : Instr} {s : State} {k : Key} {b : Block} (hp : s.phase = .validate)
    (hi : isMessage i = false) (hacc : Accepted s.config.maxMsgBytes s.q i) (hq : s.q.wf = true)
    (hk : keyOfBytes s.q.key = some k) (hb : blockOfBytes s.q.data = some b) :
    ∃ t, execSteps i 36 s = .next t ∧ t.phase = .respond ∧
      t.rsp = some (okResponse (bytesOfBlock (cipherBlock (enciphers i) k b))) := by
  obtain ⟨k', res, t, hk', hres, hrun, hph, hrsp⟩ := execSteps_blockCommand (s := s.toPhase .load) rfl hi hacc hq
  obtain rfl : k = k' := Option.some.inj (hk.symm.trans hk')
  obtain rfl : _ = res := Option.some.inj ((commandOutput_block k hi hb).symm.trans hres)
  have hvalidate := exec_of_execNext (.validated hp (operandError_eq_none.mpr hacc))
  exact ⟨t, (execSteps_succ hvalidate).trans hrun, hph, hrsp⟩

/-- Settles O43: VALIDATE, then the 35 steps of `execSteps_blockCommand`, for each of the two commands. -/
theorem blockCommandsComplete : Obligations.BlockCommandsComplete := by
  intro s hp hq hkey hdata
  have hacc : ∀ i, isMessage i = false → Accepted s.config.maxMsgBytes s.q i :=
    fun i hi => accepted_block hi hkey hdata _
  obtain ⟨k, hk⟩ := (hacc .encipher rfl).key hq
  obtain ⟨b, -, hb⟩ := (hacc .encipher rfl).blockData hq rfl
  exact ⟨k, b, hk, hb,
    execSteps_blockCommand_from_validate hp rfl (hacc .encipher rfl) hq hk hb,
    execSteps_blockCommand_from_validate hp rfl (hacc .decipher rfl) hq hk hb⟩

end Sys2Proof.Machine

/-! SUPPORT. The mode controllers as functions of blocks (42_mode_controllers.md R141 to R151): the byte sequences of a
message command read block by block, CBC in closed form, and the responses of ECB and CBC side by side. -/

namespace Sys2Proof.Machine

/-! ### Byte sequences block by block -/

/-- Block `i` of a byte sequence is its 8 bytes from `8 * i`, and there is none where they are fewer (R104, R164). -/
theorem blocksOf_getElem? (l : List Byte) (i : Nat) : (blocksOf l)[i]? = blockOfBytes (slice l (8 * i) 8) := by
  cases h : (blocksOf l)[i]? with
  | some b => exact (blockOfBytes_of_blocksOf h).symm
  | none =>
    have hlen : l.length / 8 ≤ i := blocksOf_length l ▸ List.getElem?_eq_none_iff.mp h
    refine (Option.eq_none_iff_forall_ne_some.mpr fun b hb => ?_).symm
    have hslice := blockOfBytes_length hb
    simp only [slice, List.length_take, List.length_drop] at hslice
    omega

/-- The 8 bytes from `8 * i` of an output are block `i`'s, and none where the output has no such block (R105, R166). -/
theorem slice_bytesOfBlocks (bs : List Block) (i : Nat) :
    slice (bytesOfBlocks bs) (8 * i) 8 = bs[i]?.elim [] bytesOfBlock := by
  induction bs generalizing i with
  | nil => simp [slice, bytesOfBlocks]
  | cons b bs ih =>
    cases i with
    | zero => rfl
    | succ i => exact ih i

theorem slice_bytesOfBlocks_congr {bs bs' : List Block} {i j : Nat} (h : bs[i]? = bs'[j]?) :
    slice (bytesOfBlocks bs) (8 * i) 8 = slice (bytesOfBlocks bs') (8 * j) 8 := by
  rw [slice_bytesOfBlocks, slice_bytesOfBlocks, h]

/-! ### CBC in closed form (R147) -/

section

variable (k : Key) (iv : Block) (bs : List Block)

@[simp] theorem cbcEncrypt_length : (cbcEncrypt k iv bs).length = bs.length := by
  induction bs generalizing iv with
  | nil => rfl
  | cons b bs ih => rw [cbcEncrypt, List.length_cons, ih, List.length_cons]

/-- The chain of an encryption is its own output, behind the IV. -/
theorem cbcEncrypt_eq_zipWith :
    cbcEncrypt k iv bs = List.zipWith (fun b prev => encipher k (xorBlock b prev)) bs (iv :: cbcEncrypt k iv bs) := by
  induction bs generalizing iv with
  | nil => rfl
  | cons b bs ih => exact congrArg (encipher k (xorBlock b iv) :: ·) (ih _)

/-- The chain of a decryption is its input, behind the IV. -/
theorem cbcDecrypt_eq_zipWith :
    cbcDecrypt k iv bs = List.zipWith (fun b prev => xorBlock (decipher k b) prev) bs (iv :: bs) := by
  induction bs generalizing iv with
  | nil => rfl
  | cons b bs ih => exact congrArg (xorBlock (decipher k b) iv :: ·) (ih _)

@[simp] theorem cbcDecrypt_length : (cbcDecrypt k iv bs).length = bs.length := by
  simp [cbcDecrypt_eq_zipWith]

end

section

variable {k : Key} {iv b prev : Block} {bs : List Block} {i : Nat}

theorem cbcEncrypt_getElem? (hb : bs[i]? = some b) (hprev : (iv :: cbcEncrypt k iv bs)[i]? = some prev) :
    (cbcEncrypt k iv bs)[i]? = some (encipher k (xorBlock b prev)) := by
  rw [cbcEncrypt_eq_zipWith, List.getElem?_zipWith, hb, hprev]

theorem cbcDecrypt_getElem? (hb : bs[i]? = some b) (hprev : (iv :: bs)[i]? = some prev) :
    (cbcDecrypt k iv bs)[i]? = some (xorBlock (decipher k b) prev) := by
  rw [cbcDecrypt_eq_zipWith, List.getElem?_zipWith, hb, hprev]

/-- Every block has a block chained into it: a chain as long as the input stands behind the IV. -/
theorem exists_chained {cs : List Block} (hcs : cs.length = bs.length) (hb : bs[i]? = some b) :
    ∃ prev, (iv :: cs)[i]? = some prev := by
  obtain ⟨hi, -⟩ := List.getElem?_eq_some_iff.mp hb
  exact ⟨_, List.getElem?_eq_getElem (by rw [List.length_cons, hcs]; omega)⟩

end

/-- Settles O54, by the closed form at place `i`: the obligation's `if` is place `i` of the chain behind the IV. -/
theorem cbcChainsThePreviousCiphertext : Obligations.CbcChainsThePreviousCiphertext := by
  refine fun k iv bs => ⟨cbcEncrypt_length k iv bs, cbcDecrypt_length k iv bs, fun i b hb => ?_⟩
  simp only [← List.getElem?_cons]
  obtain ⟨c, hc⟩ := exists_chained (iv := iv) (cbcEncrypt_length k iv bs) hb
  obtain ⟨c', hc'⟩ := exists_chained (iv := iv) rfl hb
  exact ⟨⟨c, hc, cbcEncrypt_getElem? hb hc⟩, ⟨c', hc', cbcDecrypt_getElem? hb hc'⟩⟩

/-! ### CBC diffusion (R151) -/

theorem encipher_injective (k : Key) : Function.Injective (encipher k) :=
  Function.LeftInverse.injective (g := decipher k) (cipherBlock_opposite true k)

theorem xorBlock_injective (b : Block) : Function.Injective (xorBlock b) := by
  intro c c' h
  obtain ⟨h0, h1⟩ := Block.mk.inj h
  exact congrArg₂ Block.mk ((BitVec.xor_right_inj _).mp h0) ((BitVec.xor_right_inj _).mp h1)

/-- Settles O55: both blocks are E of the same block XOR their chained blocks, and E and XOR are injective. -/
theorem cbcEqualBlocksDifferByTheirChain : Obligations.CbcEqualBlocksDifferByTheirChain := by
  intro k iv bs i j p ci cj hi hj hci hcj
  rw [← List.getElem?_cons] at hci hcj
  rw [cbcEncrypt_getElem? hi hci, cbcEncrypt_getElem? hj hcj]
  exact not_congr (Option.some_inj.trans ((encipher_injective k).comp (xorBlock_injective p)).eq_iff)

/-! ### Responses of the message commands -/

theorem transact_encode (cap : Nat) (q : Request) (i : Instr) :
    transact cap { q with cmd := encode i } = transactCommand cap q i := by
  rw [transact_of_decode (q := { q with cmd := encode i }) (decode_encode i), transactCommand_cmd]

section

variable {cap : Nat} {q : Request} {i : Instr}

theorem transactCommand_of_error {e : Error} (h : operandError cap q i = some e) :
    transactCommand cap q i = some (errorResponse e) := by
  rw [transactCommand, h]

theorem transactCommand_of_key {k : Key} (h : operandError cap q i = none) (hk : keyOfBytes q.key = some k) :
    transactCommand cap q i = (commandOutput k q i).map responseOf := by
  rw [transactCommand, h, hk]
  rfl

/-- A response is an operand error's, or that of the command's output under the request's key (R38). -/
theorem transactCommand_eq_some {r : Response} (h : transactCommand cap q i = some r) :
    (∃ e, operandError cap q i = some e ∧ r = errorResponse e) ∨
      ∃ k, operandError cap q i = none ∧ keyOfBytes q.key = some k ∧ (commandOutput k q i).map responseOf = some r := by
  cases he : operandError cap q i with
  | some e => exact .inl ⟨e, rfl, (Option.some.inj ((transactCommand_of_error he).symm.trans h)).symm⟩
  | none =>
    cases hk : keyOfBytes q.key with
    | some k => exact .inr ⟨k, rfl, rfl, (transactCommand_of_key he hk).symm.trans h⟩
    | none => simp [transactCommand, he, hk] at h

end

theorem ErrorKind.code_setWidth_ne_zero (kind : ErrorKind) : kind.code.setWidth 32 ≠ 0 := by
  cases kind <;> decide

theorem errorResponse_status_ne_zero (e : Error) : (errorResponse e).status ≠ 0 :=
  e.kind.code_setWidth_ne_zero

/-- Settles O53: equal bytes are read as equal blocks, and ECB enciphers each by itself (R141). -/
theorem equalBlocksEncryptEqually : Obligations.EqualBlocksEncryptEqually := by
  intro cap q skip r i j hd hr hs _ _ heq
  rw [transact_of_decode hd] at hr
  obtain ⟨e, -, rfl⟩ | ⟨k, -, -, hout⟩ := transactCommand_eq_some hr
  · exact absurd hs (errorResponse_status_ne_zero e)
  · obtain rfl := Option.some.inj hout
    refine slice_bytesOfBlocks_congr ?_
    rw [ecbEncrypt, List.getElem?_map, List.getElem?_map, blocksOf_getElem?, blocksOf_getElem?, heq]

/-! ### A zero IV (R146, R150) -/

theorem xorBlock_zero (b : Block) : xorBlock b ⟨0, 0⟩ = b :=
  congrArg₂ Block.mk BitVec.xor_zero BitVec.xor_zero

/-- An explicit zero IV is loaded as no IV is (R106, R146). -/
theorem ivOf_zero {q : Request} (h : q.iv = List.replicate 8 0) : ivOf true q = ivOf false q := by
  rw [ivOf, h]
  rfl

theorem messageError_of_ivLen {q : Request} (h : q.ivLen = 8) (cap : Nat) (aligned : Bool) :
    messageError cap true aligned q = messageError cap false aligned q := by
  simp [messageError, h]

theorem cbcEncrypt_zero_head (k : Key) (bs : List Block) : (cbcEncrypt k ⟨0, 0⟩ bs)[0]? = (ecbEncrypt k bs)[0]? := by
  cases bs with
  | nil => rfl
  | cons b bs => rw [cbcEncrypt, xorBlock_zero]; rfl

/-- Settles O56: a zero IV of 8 bytes passes the same checks and loads the same words as none; and ENCRYPT.CBC without an
IV makes ENCRYPT.ECB's checks and enciphers the same first block. -/
theorem zeroIvIsNoIv : Obligations.ZeroIvIsNoIv := by
  unfold Obligations.ZeroIvIsNoIv
  simp only [transact_encode]
  refine ⟨fun cap q skip hlen hiv => ?_, fun cap q skip r r' h h' => ?_⟩
  · simp only [transactCommand, operandError, commandOutput, messageError_of_ivLen hlen, ivOf_zero hiv, and_self]
  · obtain ⟨e, he, rfl⟩ | ⟨k, he, hk, hout⟩ := transactCommand_eq_some h
    · obtain rfl := Option.some.inj ((transactCommand_of_error (i := .encryptEcb skip) he).symm.trans h')
      exact ⟨rfl, rfl⟩
    · obtain rfl := Option.some.inj hout
      obtain rfl := Option.some.inj ((transactCommand_of_key (i := .encryptEcb skip) he hk).symm.trans h')
      exact ⟨rfl, slice_bytesOfBlocks_congr (i := 0) (j := 0) (cbcEncrypt_zero_head k _)⟩

end Sys2Proof.Machine

/-! SUPPORT. The steps of the message commands one by one (43_block_pipeline.md R161 to R168, R176 to R180): the padded
message and its blocks, and the whole next state of LOAD, FETCH, STORE, UNPAD and FINISH. -/

namespace Sys2Proof.Machine

/-! ### The padded message and its blocks -/

theorem padMessage_length_add (m : List Byte) : (padMessage m).length = m.length + padLenOf m.length := by
  rw [padMessage, List.length_append, padBytes_length]

theorem padMessage_getLast? (m : List Byte) :
    (padMessage m).getLast? = some (BitVec.ofNat 8 (padLenOf m.length)) := by
  have hpos : padLenOf m.length ≠ 0 := Nat.one_le_iff_ne_zero.mp (padLenOf_bounds _).1
  rw [padMessage, padBytes, List.getLast?_append, List.getLast?_replicate, if_neg hpos, Option.some_or]

/-- Settles O9: the pad is 1 to 8 copies of its length, so the last byte is one of them. -/
theorem paddedMessageEndsInItsPadLength : Obligations.PaddedMessageEndsInItsPadLength := by
  intro m
  obtain ⟨h1, h8⟩ := padLenOf_bounds m.length
  exact ⟨h1, h8, rfl, padMessage_length_add m, padMessage_length m, padMessage_getLast? m⟩

section

variable {q : Request} {bi : Nat}

/-- With padding, FETCH forms the blocks of the padded message: those of the message, then the padded one (R164). -/
theorem formBlock_padMessage (hd : q.data.length = q.dataLen.toNat) (h : bi ≤ q.dataLen.toNat / 8) :
    formBlock true q (padLenOf q.dataLen.toNat) bi = some (slice (padMessage q.data) (8 * bi) 8) := by
  by_cases hw : 8 * bi + 8 ≤ q.dataLen.toNat
  · rw [formBlock_whole _ _ hw, padMessage, slice_append (by omega)]
  · obtain rfl : bi = q.dataLen.toNat / 8 := by omega
    exact formBlock_last hd

theorem slice_padMessage_length (hd : q.data.length = q.dataLen.toNat) (h : bi ≤ q.dataLen.toNat / 8) :
    (slice (padMessage q.data) (8 * bi) 8).length = 8 :=
  slice_length (by rw [padMessage_length, hd]; omega)

/-- The block FETCH forms, of any request whose length suits the command (R164). -/
theorem exists_blockAt_of_aligned {i : Instr} {padlen : Nat} (hd : q.data.length = q.dataLen.toNat)
    (hbi : bi < blockCount (pads i) q.dataLen.toNat) (hpad : pads i = true → padlen = padLenOf q.dataLen.toNat)
    (haligned : pads i = false → q.dataLen.toNat % 8 = 0) :
    ∃ b, blockOfBytes (slice (inputOf i q.data) (8 * bi) 8) = some b ∧ blockAt i q padlen bi = some b := by
  unfold inputOf blockAt
  cases hp : pads i with
  | true =>
    have hle : bi ≤ q.dataLen.toNat / 8 := by simpa [hp, blockCount, Nat.lt_succ_iff] using hbi
    obtain ⟨b, hb⟩ := blockOfBytes_eq_some (slice_padMessage_length hd hle)
    rw [hpad hp, formBlock_padMessage hd hle]
    exact ⟨b, hb, hb⟩
  | false =>
    have hlt : bi < q.dataLen.toNat / 8 := by simpa [hp, blockCount] using hbi
    have hmod := haligned hp
    have hfit : 8 * bi + 8 ≤ q.dataLen.toNat := by omega
    obtain ⟨b, hb⟩ := blockOfBytes_eq_some (slice_length (s := q.data) (by rwa [hd]))
    rw [formBlock_whole _ _ hfit]
    exact ⟨b, hb, hb⟩

end

/-- Settles O10, by `formBlock_padMessage` with padding and `formBlock_whole` for a whole block of the message. -/
theorem formedBlocksAreThoseOfTheMessage : Obligations.FormedBlocksAreThoseOfTheMessage := by
  intro q bi hq
  obtain ⟨-, -, hd⟩ := Request.wf_iff.mp hq
  refine ⟨fun h => ⟨formBlock_padMessage hd h, slice_padMessage_length hd h⟩, fun h pad p => ?_⟩
  exact ⟨formBlock_whole pad p h, slice_length (by rwa [hd])⟩

/-! ### LOAD, FETCH and STORE -/

theorem keyOfBytes_of_keyLen {q : Request} (hq : q.wf = true) (h : q.keyLen = 16) :
    ∃ k, keyOfBytes q.key = some k :=
  keyOfBytes_eq_some (by rw [(Request.wf_iff.mp hq).1, h]; rfl)

theorem exists_ivOf {q : Request} {ivp : Bool} (hq : q.wf = true) (h : ivp = true → q.ivLen = 8) :
    ∃ iv, ivOf ivp q = some iv := by
  cases ivp with
  | false => exact ⟨_, rfl⟩
  | true => exact blockOfBytes_eq_some (by rw [(Request.wf_iff.mp hq).2.1, h rfl]; rfl)

/-- Settles O18: the key and the initial IV load, and `loadMessage` is the rest of R176. -/
theorem loadStepOfMessageCommands : Obligations.LoadStepOfMessageCommands := by
  intro s i hp hi hq hkey hivLen n nb
  obtain ⟨k, hk⟩ := keyOfBytes_of_keyLen hq hkey
  cases hc : chains i with
  | true =>
    obtain ⟨iv, hiv⟩ := exists_ivOf hq hivLen
    exact ⟨k, iv, hk, fun _ => hiv, nofun, exec_of_execNext (.loadedMessage hp hi k iv hk (by rwa [loadIv, hc]))⟩
  | false =>
    exact ⟨k, s.ivw, hk, nofun, fun _ => rfl,
      exec_of_execNext (.loadedMessage hp hi k s.ivw hk (by rw [loadIv, hc]; rfl))⟩

/-- The fields FETCH writes. -/
theorem fetchBlock_eq (i : Instr) (b : Block) (s : State) :
    fetchBlock i b s = { s with
      y := if chains i && enciphers i then b.v0 ^^^ s.ivw.v0 else b.v0
      z := if chains i && enciphers i then b.v1 ^^^ s.ivw.v1 else b.v1
      tmp := if chains i && !enciphers i then b else s.tmp
      sum := startSum i
      phase := .round } := by
  unfold fetchBlock
  cases chains i && enciphers i <;> rfl

/-- Settles O19: the block formed is that of the input at 8·BI, and `fetchBlock_eq` says what is written. -/
theorem fetchStepOfMessageCommands : Obligations.FetchStepOfMessageCommands := by
  intro s i hp hi hq hbi hpad haligned
  obtain ⟨b, hslice, hb⟩ := exists_blockAt_of_aligned (Request.wf_iff.mp hq).2.2 hbi hpad haligned
  refine ⟨b, hslice, ?_⟩
  rw [exec_of_execNext (.fetched hp hi b hb), fetchBlock_eq]
  rfl

/-- The fields the controller writes in STORE. -/
theorem chainOutput_eq (i : Instr) (s : State) :
    chainOutput i s = { s with
      y := if chains i && !enciphers i then s.y ^^^ s.ivw.v0 else s.y
      z := if chains i && !enciphers i then s.z ^^^ s.ivw.v1 else s.z
      ivw := if chains i then (if enciphers i then ⟨s.y, s.z⟩ else s.tmp) else s.ivw } := by
  unfold chainOutput
  cases chains i && !enciphers i <;> rfl

/-- Settles O21: `chainOutput_eq` says what the controller writes, `Memory.read_writeBytes` what the store does. -/
theorem storeStepOfMessageCommands : Obligations.StoreStepOfMessageCommands := by
  intro s i hp hi hfit y' z'
  have hstep := exec_of_execNext (.storedMessage hp hi hfit)
  rw [chainOutput_eq] at hstep
  exact ⟨_, hstep, fun a => Memory.read_writeBytes s.outBuf (8 * s.bi.toNat) (bytesOfBlock ⟨y', z'⟩) a⟩

/-! ### UNPAD and FINISH -/

/-- Settles O22, by the three cases of UNPAD: `padError` is the test of R167. -/
theorem unpadStepOfDecrypts : Obligations.UnpadStepOfDecrypts := by
  intro s i hp hu
  refine ⟨fun h0 => exec_of_execNext (.unpadEmpty hp hu h0), fun p h0 hr => ⟨fun hbad => ?_, fun hgood => ?_⟩⟩
  · exact exec_of_execNext (.unpadBad hp hu h0 p hr _ (if_pos hbad))
  · exact exec_of_execNext (.unpadded hp hu h0 p hr (if_neg hgood))

/-- The same state with another OUT_BUF. -/
def State.withOutBuf (s : State) (m : Memory) : State := { s with outBuf := m }

/-- Settles O23: each answer of UNPAD rests on OLEN and the byte at OLEN - 1, which the other OUT_BUF has too. -/
theorem unpadReadsOnlyTheLastByte : Obligations.UnpadReadsOnlyTheLastByte := by
  intro s t i m hp hu hm h
  refine (exec_unpad_next (s := s.withOutBuf m) hp).mpr ⟨hu, ?_⟩
  obtain ⟨-, ⟨h0, rfl⟩ | ⟨h0, p, hr, hcase⟩⟩ := (exec_unpad_next hp).mp h
  · exact .inl ⟨h0, rfl⟩
  · refine .inr ⟨h0, p, hm.trans hr, ?_⟩
    obtain ⟨e, he, rfl⟩ | ⟨he, rfl⟩ := hcase
    · exact .inl ⟨e, he, rfl⟩
    · exact .inr ⟨he, rfl⟩

/-- Settles O24: where every output byte is written the read answers, byte for byte. -/
theorem finishStepOfEachCommand : Obligations.FinishStepOfEachCommand := by
  intro s i hp hw
  obtain ⟨out, hout⟩ := Memory.readBytes_isSome (a := 0) fun a ha => (Nat.zero_add a).symm ▸ hw a ha
  obtain ⟨hlen, hread⟩ := Memory.readBytes_eq_some.mp hout
  refine ⟨out, hlen, fun a ha => ?_, exec_of_execNext (.finished hp out hout)⟩
  rw [hread a ha, Nat.zero_add]

end Sys2Proof.Machine

/-! SUPPORT. The message commands as a whole (43_block_pipeline.md R169 to R175, R181): the bytes each command ciphers,
the runs from VALIDATE that put them out, the lengths of the responses, and decryption undoing encryption. -/

namespace Sys2Proof.Machine

/-! ### The bytes a command ciphers -/

/-- The output blocks of a command as bytes, before any Unpad (R120, R121, R170, R173). -/
def cipheredBytes (k : Key) (q : Request) : Instr → Option (List Byte)
  | .encipher => (blockOfBytes q.data).map fun b => bytesOfBlock (encipher k b)
  | .decipher => (blockOfBytes q.data).map fun b => bytesOfBlock (decipher k b)
  | .encryptEcb skip => some (bytesOfBlocks (ecbEncrypt k (blocksOf (encryptInput skip q.data))))
  | .encryptCbc skip ivp =>
    (ivOf ivp q).map fun iv => bytesOfBlocks (cbcEncrypt k iv (blocksOf (encryptInput skip q.data)))
  | .decryptEcb _ => some (bytesOfBlocks (ecbDecrypt k (blocksOf q.data)))
  | .decryptCbc _ ivp => (ivOf ivp q).map fun iv => bytesOfBlocks (cbcDecrypt k iv (blocksOf q.data))

theorem decryptOutput_eq_outputOf_ecb (skip : Bool) : decryptOutput skip = outputOf (.decryptEcb skip) := by
  cases skip <;> rfl

theorem decryptOutput_eq_outputOf_cbc (skip ivp : Bool) : decryptOutput skip = outputOf (.decryptCbc skip ivp) := by
  cases skip <;> rfl

/-- A command's output is what it ciphers, or what Unpad makes of that (R170, R173). -/
theorem commandOutput_eq (k : Key) (q : Request) (i : Instr) :
    commandOutput k q i = (cipheredBytes k q i).map (outputOf i) := by
  cases i with
  | encipher | decipher | encryptCbc => rw [cipheredBytes, Option.map_map]; rfl
  | encryptEcb => rfl
  | decryptEcb skip => rw [commandOutput, decryptOutput_eq_outputOf_ecb]; rfl
  | decryptCbc skip ivp =>
    rw [commandOutput, decryptOutput_eq_outputOf_cbc skip ivp, cipheredBytes, Option.map_map]
    rfl

theorem bytesOfBlocks_length (bs : List Block) : (bytesOfBlocks bs).length = 8 * bs.length := by
  simp [bytesOfBlocks, Nat.mul_comm]

section

variable {cap : Nat} {q : Request} {i : Instr} {k : Key} {out : List Byte}

theorem inputOf_encryptEcb (skip : Bool) (m : List Byte) : inputOf (.encryptEcb skip) m = encryptInput skip m := by
  cases skip <;> rfl

theorem inputOf_encryptCbc (skip ivp : Bool) (m : List Byte) :
    inputOf (.encryptCbc skip ivp) m = encryptInput skip m := by
  cases skip <;> rfl

/-- A message command puts out as many blocks as its input has (R141 to R145). -/
theorem cipheredBytes_message (hi : isMessage i = true) (h : cipheredBytes k q i = some out) :
    out.length = 8 * (blocksOf (inputOf i q.data)).length := by
  cases i with
  | encipher | decipher => cases hi
  | encryptEcb skip =>
    obtain rfl := Option.some.inj h
    rw [bytesOfBlocks_length, ecbEncrypt, List.length_map, inputOf_encryptEcb]
  | decryptEcb skip =>
    obtain rfl := Option.some.inj h
    rw [bytesOfBlocks_length, ecbDecrypt, List.length_map]
    rfl
  | encryptCbc skip ivp =>
    obtain ⟨iv, -, rfl⟩ := Option.map_eq_some_iff.mp h
    rw [bytesOfBlocks_length, cbcEncrypt_length, inputOf_encryptCbc]
  | decryptCbc skip ivp =>
    obtain ⟨iv, -, rfl⟩ := Option.map_eq_some_iff.mp h
    rw [bytesOfBlocks_length, cbcDecrypt_length]
    rfl

theorem cipheredBytes_length (hacc : Accepted cap q i) (hq : q.wf = true) (h : cipheredBytes k q i = some out) :
    out.length = 8 * blocksFor q.dataLen.toNat i := by
  cases hi : isMessage i with
  | true => rw [cipheredBytes_message hi h, blocksOf_inputOf_length hacc hq hi]
  | false =>
    rw [blocksFor_block hi]
    cases i with
    | encipher | decipher =>
      obtain ⟨b, -, rfl⟩ := Option.map_eq_some_iff.mp h
      rfl
    | encryptEcb | encryptCbc | decryptEcb | decryptCbc => cases hi

/-- Without padding the blocks are the whole of an aligned message (R163). -/
theorem eight_mul_blockCount {n : Nat} (h : n % 8 = 0) : 8 * blockCount false n = n :=
  Nat.mul_div_cancel' (Nat.dvd_of_mod_eq_zero h)

theorem outputOf_of_not_unpads (hu : unpads i = false) (out : List Byte) : outputOf i out = .ok out := by
  rw [outputOf, hu]
  rfl

theorem outputOf_of_unpads (hu : unpads i = true) (out : List Byte) : outputOf i out = unpad out := by
  rw [outputOf, hu, if_pos rfl]

theorem accepted_message (hi : isMessage i = true) (hkey : q.keyLen = 16) (hcap : q.dataLen.toNat ≤ cap)
    (hiv : readsIv i = true → q.ivLen = 8) (haligned : needsAligned i = true → q.dataLen.toNat % 8 = 0) :
    Accepted cap q i :=
  ⟨hkey, by simp [hi], fun _ => hcap, hiv, haligned⟩

end

/-! ### From VALIDATE to RESPOND -/

section

variable {i : Instr} {s : State} {k : Key} {out : List Byte} (hp : s.phase = .validate) (hc : s.config.wf = true)
  (hq : s.q.wf = true) (hacc : Accepted s.config.maxMsgBytes s.q i) (hk : keyOfBytes s.q.key = some k)
  (hout : cipheredBytes k s.q i = some out)

include hp hc hq hacc hk hout

/-- VALIDATE and LOAD, 34 steps for each block, and the steps after the last one (R176 to R180). -/
theorem execSteps_message_from_validate (hi : isMessage i = true) :
    ∃ t, execSteps i (2 + 34 * blocksFor s.q.dataLen.toNat i + lastSteps i (outputOf i out)) s = .next t ∧
      t.phase = .respond ∧ t.rsp = some (responseOf (outputOf i out)) := by
  have hvalidate := exec_of_execNext (.validated hp (operandError_eq_none.mpr hacc))
  obtain ⟨k', res, t, hk', hres, hrun, hph, hrsp⟩ :=
    execSteps_messageCommand (s := s.toPhase .load) rfl hi hacc hq (capacity_lt_of_wf hc)
  obtain rfl : k = k' := Option.some.inj (hk.symm.trans hk')
  obtain rfl : outputOf i out = res := by
    have hcommand : commandOutput k s.q i = some (outputOf i out) := by rw [commandOutput_eq, hout]; rfl
    exact Option.some.inj (hcommand.symm.trans hres)
  refine ⟨t, ?_, hph, hrsp⟩
  rw [show 2 + 34 * blocksFor s.q.dataLen.toNat i + lastSteps i (outputOf i out) =
    1 + (34 * blocksFor s.q.dataLen.toNat i + lastSteps i (outputOf i out)) + 1 by omega, execSteps_succ hvalidate]
  exact hrun

/-- Where nothing is stripped, the response carries what was ciphered. -/
theorem execSteps_without_unpadding (hi : isMessage i = true) (hu : unpads i = false) :
    ∃ t, execSteps i (3 + 34 * blocksFor s.q.dataLen.toNat i) s = .next t ∧ t.phase = .respond ∧
      t.rsp = some ⟨0, 0, BitVec.ofNat 32 (8 * blocksFor s.q.dataLen.toNat i), out⟩ := by
  obtain ⟨t, hrun, hph, hrsp⟩ := execSteps_message_from_validate hp hc hq hacc hk hout hi
  rw [outputOf_of_not_unpads hu] at hrun hrsp
  have hlast : lastSteps i (.ok out) = 1 := by rw [lastSteps, hu]; rfl
  refine ⟨t, ?_, hph, ?_⟩
  · rwa [hlast, Nat.add_right_comm] at hrun
  · rwa [responseOf, okResponse, cipheredBytes_length hacc hq hout] at hrsp

/-- Where padding is stripped, Unpad of what was ciphered decides between a message and BAD_PADDING (R167). -/
theorem execSteps_with_unpadding (hu : unpads i = true) :
    (∀ m, unpad out = .ok m →
      ∃ t, execSteps i (4 + 34 * (s.q.dataLen.toNat / 8)) s = .next t ∧ t.phase = .respond ∧
        t.rsp = some (okResponse m)) ∧
    ∀ e, unpad out = .error e →
      ∃ t, execSteps i (3 + 34 * (s.q.dataLen.toNat / 8)) s = .next t ∧ t.phase = .respond ∧
        t.rsp = some ⟨6, e.info, 0, []⟩ := by
  have hi := isMessage_of_unpads hu
  obtain ⟨t, hrun, hph, hrsp⟩ := execSteps_message_from_validate hp hc hq hacc hk hout hi
  have hcount : blocksFor s.q.dataLen.toNat i = s.q.dataLen.toNat / 8 := by
    rw [blocksFor_message hi, pads_of_unpads hu]; rfl
  rw [outputOf_of_unpads hu, hcount, Nat.add_right_comm] at hrun
  rw [outputOf_of_unpads hu] at hrsp
  refine ⟨fun m hm => ⟨t, ?_, hph, ?_⟩, fun e he => ⟨t, ?_, hph, ?_⟩⟩
  · have hlast : lastSteps i (unpad out) = 2 := by rw [lastSteps, hu, hm]; rfl
    rwa [hlast] at hrun
  · rwa [hm] at hrsp
  · have hlast : lastSteps i (unpad out) = 1 := by rw [lastSteps, hu, he]; rfl
    rwa [hlast] at hrun
  · rw [he, responseOf, errorResponse, unpad_error_kind he] at hrsp
    exact hrsp

end

/-- Settles O44: `execSteps_without_unpadding` for each of the two commands. -/
theorem encryptCommandsComplete : Obligations.EncryptCommandsComplete := by
  intro s skip hp hc hq hkey hcap haligned nb input
  obtain ⟨k, hk⟩ := keyOfBytes_of_keyLen hq hkey
  refine ⟨k, hk, ?_, fun ivp hivLen => ?_⟩
  · exact execSteps_without_unpadding (i := .encryptEcb skip) hp hc hq
      (accepted_message rfl hkey hcap nofun haligned) hk rfl rfl rfl
  · obtain ⟨iv, hiv⟩ := exists_ivOf hq hivLen
    refine ⟨iv, hiv, ?_⟩
    exact execSteps_without_unpadding (i := .encryptCbc skip ivp) hp hc hq
      (accepted_message rfl hkey hcap hivLen haligned) hk (by rw [cipheredBytes, hiv]; rfl) rfl rfl

/-- Settles O45: `execSteps_without_unpadding` again; the output is as long as the data, whose length is aligned. -/
theorem decryptCommandsCompleteWithoutUnpadding : Obligations.DecryptCommandsCompleteWithoutUnpadding := by
  intro s hp hc hq hkey hcap haligned
  obtain ⟨k, hk⟩ := keyOfBytes_of_keyLen hq hkey
  have hlen : BitVec.ofNat 32 (8 * blockCount false s.q.dataLen.toNat) = s.q.dataLen := by
    rw [eight_mul_blockCount haligned, BitVec.ofNat_toNat, BitVec.setWidth_eq]
  refine ⟨k, hk, ?_, fun ivp hivLen => ?_⟩
  · have hrun := execSteps_without_unpadding (i := .decryptEcb true) hp hc hq
      (accepted_message rfl hkey hcap nofun fun _ => haligned) hk rfl rfl rfl
    rwa [blocksFor, hlen] at hrun
  · obtain ⟨iv, hiv⟩ := exists_ivOf hq hivLen
    have hrun := execSteps_without_unpadding (i := .decryptCbc true ivp) hp hc hq
      (accepted_message rfl hkey hcap hivLen fun _ => haligned) hk (by rw [cipheredBytes, hiv]; rfl) rfl rfl
    rw [blocksFor, hlen] at hrun
    exact ⟨iv, hiv, hrun⟩

/-- Settles O46: in both modes `plain` is what the command ciphers, so `execSteps_with_unpadding` has both outcomes. -/
theorem decryptCommandsCompleteWithUnpadding : Obligations.DecryptCommandsCompleteWithUnpadding := by
  intro s hp hc hq hkey hcap haligned
  obtain ⟨k, hk⟩ := keyOfBytes_of_keyLen hq hkey
  refine ⟨k, hk, fun i plain h => ?_⟩
  obtain ⟨rfl, rfl⟩ | ⟨ivp, iv, rfl, hivLen, hiv, rfl⟩ := h
  · exact execSteps_with_unpadding hp hc hq (accepted_message rfl hkey hcap nofun fun _ => haligned) hk rfl rfl
  · exact execSteps_with_unpadding hp hc hq (accepted_message rfl hkey hcap hivLen fun _ => haligned) hk
      (by rw [cipheredBytes, hiv]; rfl) rfl

/-! ### The length of a response (R169) -/

section

variable {cap : Nat} {q : Request} {i : Instr} {k : Key} {out m : List Byte} {r : Response}

/-- What Unpad strips: the last byte says how many, from 1 to 8 (R167). -/
theorem unpad_ok_length (h : unpad out = .ok m) :
    ∃ p, out.getLast? = some p ∧ 1 ≤ p.toNat ∧ p.toNat ≤ 8 ∧ m.length + p.toNat = out.length := by
  cases hlast : out.getLast? with
  | none => simp [unpad, hlast] at h
  | some p =>
    cases he : padError p out.length with
    | some e => simp [unpad_of_padError hlast he] at h
    | none =>
      obtain ⟨h0, h8, hle⟩ := padError_eq_none.mp he
      obtain rfl := Except.ok.inj ((unpad_of_padError_none hlast he).symm.trans h)
      refine ⟨p, rfl, by bv_omega, h8, ?_⟩
      rw [List.length_take_of_le (Nat.sub_le _ _), Nat.sub_add_cancel hle]

/-- A response of status 0 is that of an accepted request whose output Unpad, where there is one, lets pass. -/
theorem transact_ok (hd : decode q.cmd = .instr i) (h : transact cap q = some r) (hs : r.status = 0) :
    ∃ k out m, Accepted cap q i ∧ keyOfBytes q.key = some k ∧ cipheredBytes k q i = some out ∧
      outputOf i out = .ok m ∧ r = okResponse m := by
  rw [transact_of_decode hd] at h
  obtain ⟨e, -, rfl⟩ | ⟨k, hacc, hk, hout⟩ := transactCommand_eq_some h
  · exact absurd hs (errorResponse_status_ne_zero e)
  · obtain ⟨res, hres, rfl⟩ := Option.map_eq_some_iff.mp hout
    obtain ⟨out, hciphered, rfl⟩ := Option.map_eq_some_iff.mp ((commandOutput_eq k q i).symm.trans hres)
    cases ho : outputOf i out with
    | error e =>
      rw [ho] at hs
      exact absurd hs (errorResponse_status_ne_zero e)
    | ok m => exact ⟨k, out, m, operandError_eq_none.mp hacc, hk, hciphered, ho, rfl⟩

theorem outputOf_ok_length_le (h : outputOf i out = .ok m) : m.length ≤ out.length := by
  cases hu : unpads i with
  | false =>
    rw [outputOf_of_not_unpads hu] at h
    exact (congrArg List.length (Except.ok.inj h)).ge
  | true =>
    rw [outputOf_of_unpads hu] at h
    obtain ⟨p, -, -, -, hlen⟩ := unpad_ok_length h
    omega

theorem okResponse_outLen (h : m.length < 2 ^ 32) : (okResponse m).outLen.toNat = m.length := by
  rw [okResponse, BitVec.toNat_ofNat, Nat.mod_eq_of_lt h]

/-- What a decrypt with unpadding ciphers, by its mode. -/
theorem cipheredBytes_of_unpads (hu : unpads i = true) (h : cipheredBytes k q i = some out) :
    i = .decryptEcb false ∧ out = bytesOfBlocks (ecbDecrypt k (blocksOf q.data)) ∨
      ∃ ivp iv, i = .decryptCbc false ivp ∧ ivOf ivp q = some iv ∧
        out = bytesOfBlocks (cbcDecrypt k iv (blocksOf q.data)) := by
  cases i with
  | encipher | decipher | encryptEcb | encryptCbc => cases hu
  | decryptEcb skip =>
    obtain rfl : skip = false := by simpa [unpads] using hu
    exact .inl ⟨rfl, (Option.some.inj h).symm⟩
  | decryptCbc skip ivp =>
    obtain rfl : skip = false := by simpa [unpads] using hu
    obtain ⟨iv, hiv, rfl⟩ := Option.map_eq_some_iff.mp h
    exact .inr ⟨ivp, iv, rfl, hiv, rfl⟩

end

/-- Settles O51: the ciphered bytes are 8 for each block, and Unpad takes off as many as the last byte says. -/
theorem outputLengthOfEachCommand : Obligations.OutputLengthOfEachCommand := by
  intro cap q i r hcap hq hd hr hs
  obtain ⟨k, out, m, hacc, hk, hout, hm, rfl⟩ := transact_ok hd hr hs
  have hlen := cipheredBytes_length hacc hq hout
  have hle := outputOf_ok_length_le hm
  have hfit := hacc.blocks_fit
  rw [okResponse_outLen (by omega)]
  have hwhole (hu : unpads i = false) : m.length = 8 * blocksFor q.dataLen.toNat i := by
    rw [outputOf_of_not_unpads hu] at hm
    rw [← hlen, Except.ok.inj hm]
  refine ⟨rfl, fun hi => ?_, fun hpad => ?_, fun hi hpad hu => ?_, fun hu => ?_⟩
  · have hu : unpads i = false := Bool.eq_false_iff.mpr fun hu => by simp [isMessage_of_unpads hu] at hi
    rw [hwhole hu, blocksFor_block hi]
  · rw [hwhole (unpads_of_pads hpad), blocksFor_message (isMessage_of_pads hpad), hpad, blockCount, if_pos rfl]
    have := padLenOf_add q.dataLen.toNat
    omega
  · have haligned := hacc.aligned_of_not_pads hi hpad
    rw [hwhole hu, blocksFor_message hi, hpad]
    exact eight_mul_blockCount haligned
  · have hi := isMessage_of_unpads hu
    have hpad := pads_of_unpads hu
    have haligned := hacc.aligned_of_not_pads hi hpad
    rw [outputOf_of_unpads hu] at hm
    obtain ⟨p, hlast, h1, h8, hsum⟩ := unpad_ok_length hm
    refine ⟨k, out, p, hk, cipheredBytes_of_unpads hu hout, hlast, h1, h8, ?_⟩
    rw [hsum, hlen, blocksFor_message hi, hpad]
    exact eight_mul_blockCount haligned

/-! ### Decryption undoes encryption (R181) -/

theorem blocksOf_bytesOfBlock_append (b : Block) (l : List Byte) : blocksOf (bytesOfBlock b ++ l) = b :: blocksOf l :=
  congrArg₂ (fun v w => Block.mk v w :: blocksOf l) (word4_extractLsb' b.v0) (word4_extractLsb' b.v1)

theorem blocksOf_bytesOfBlocks (bs : List Block) : blocksOf (bytesOfBlocks bs) = bs := by
  induction bs with
  | nil => rfl
  | cons b bs ih => exact (blocksOf_bytesOfBlock_append b _).trans (congrArg (b :: ·) ih)

theorem bytesOfBlocks_blocksOf : ∀ l : List Byte, l.length % 8 = 0 → bytesOfBlocks (blocksOf l) = l
  | [], _ => rfl
  | [_], h | [_, _], h | [_, _, _], h | [_, _, _, _], h | [_, _, _, _, _], h | [_, _, _, _, _, _], h
  | [_, _, _, _, _, _, _], h => by simp at h
  | a :: b :: c :: d :: e :: f :: g :: j :: rest, h => by
    have ih := bytesOfBlocks_blocksOf rest (by simp only [List.length_cons] at h; omega)
    have hblock : bytesOfBlock ⟨word4 a b c d, word4 e f g j⟩ = [a, b, c, d, e, f, g, j] := by
      rw [bytesOfBlock, bytesOfWord_word4, bytesOfWord_word4]; rfl
    exact congrArg₂ (· ++ ·) hblock ih

theorem ecbDecrypt_ecbEncrypt (k : Key) (bs : List Block) : ecbDecrypt k (ecbEncrypt k bs) = bs := by
  have hinv : decipher k ∘ encipher k = id := funext (cipherBlock_opposite true k)
  rw [ecbDecrypt, ecbEncrypt, List.map_map, hinv, List.map_id]

theorem xorBlock_xorBlock_self (a b : Block) : xorBlock (xorBlock a b) b = a := by
  simp [xorBlock]

theorem cbcDecrypt_cbcEncrypt (k : Key) (iv : Block) (bs : List Block) :
    cbcDecrypt k iv (cbcEncrypt k iv bs) = bs := by
  induction bs generalizing iv with
  | nil => rfl
  | cons b bs ih =>
    have hinv : decipher k (encipher k (xorBlock b iv)) = xorBlock b iv := cipherBlock_opposite true k _
    rw [cbcEncrypt, cbcDecrypt, ih, hinv, xorBlock_xorBlock_self]

/-- Unpad strips what Pad appended (R162, R167). -/
theorem unpad_padMessage (m : List Byte) : unpad (padMessage m) = .ok m := by
  obtain ⟨h1, h8⟩ := padLenOf_bounds m.length
  have hp : (BitVec.ofNat 8 (padLenOf m.length)).toNat = padLenOf m.length := by
    rw [BitVec.toNat_ofNat, Nat.mod_eq_of_lt (by omega)]
  have hlen := padMessage_length_add m
  have hgood : padError (BitVec.ofNat 8 (padLenOf m.length)) (padMessage m).length = none :=
    padError_eq_none.mpr ⟨by bv_omega, by omega, by omega⟩
  rw [unpad_of_padError_none (padMessage_getLast? m) hgood, hp, hlen, Nat.add_sub_cancel, padMessage, List.take_left]

theorem encryptInput_length (skip : Bool) (m : List Byte) :
    (encryptInput skip m).length = m.length + if skip then 0 else padLenOf m.length := by
  cases skip with
  | true => rfl
  | false => exact padMessage_length_add m

/-- The encrypt of a mode and its operands. -/
def encryptCommand (cbc skip ivp : Bool) : Instr := if cbc then .encryptCbc skip ivp else .encryptEcb skip

/-- The decrypt of a mode and its operands. -/
def decryptCommand (cbc skip ivp : Bool) : Instr := if cbc then .decryptCbc skip ivp else .decryptEcb skip

/-- The request with other data, as it stands on the port (R35). -/
def Request.withData (q : Request) (c : List Byte) : Request :=
  { q with dataLen := BitVec.ofNat 32 c.length, data := c }

section

variable (cbc skip ivp : Bool)

@[simp] theorem isMessage_encryptCommand : isMessage (encryptCommand cbc skip ivp) = true := by cases cbc <;> rfl
@[simp] theorem readsIv_encryptCommand : readsIv (encryptCommand cbc skip ivp) = (cbc && ivp) := by cases cbc <;> rfl
@[simp] theorem needsAligned_encryptCommand : needsAligned (encryptCommand cbc skip ivp) = skip := by cases cbc <;> rfl
@[simp] theorem unpads_encryptCommand : unpads (encryptCommand cbc skip ivp) = false := by cases cbc <;> rfl
@[simp] theorem isMessage_decryptCommand : isMessage (decryptCommand cbc skip ivp) = true := by cases cbc <;> rfl
@[simp] theorem readsIv_decryptCommand : readsIv (decryptCommand cbc skip ivp) = (cbc && ivp) := by cases cbc <;> rfl
@[simp] theorem unpads_decryptCommand : unpads (decryptCommand cbc skip ivp) = !skip := by cases cbc <;> rfl

theorem inputOf_encryptCommand (m : List Byte) : inputOf (encryptCommand cbc skip ivp) m = encryptInput skip m := by
  cases cbc with
  | false => exact inputOf_encryptEcb skip m
  | true => exact inputOf_encryptCbc skip ivp m

/-- The end of a decrypt gives the message an encrypt enciphers. -/
theorem outputOf_decryptCommand (m : List Byte) :
    outputOf (decryptCommand cbc skip ivp) (encryptInput skip m) = .ok m := by
  cases skip with
  | true => exact outputOf_of_not_unpads (unpads_decryptCommand _ _ _) m
  | false => exact (outputOf_of_unpads (unpads_decryptCommand _ _ _) _).trans (unpad_padMessage m)

end

section

variable {cap : Nat} {q : Request} {i : Instr} {k : Key} {out : List Byte} {cbc skip ivp : Bool}

theorem accepted_encryptCommand (hkey : q.keyLen = 16) (hcap : q.dataLen.toNat ≤ cap)
    (hiv : cbc = true → ivp = true → q.ivLen = 8) (haligned : skip = true → q.dataLen.toNat % 8 = 0) :
    Accepted cap q (encryptCommand cbc skip ivp) :=
  accepted_message (by simp) hkey hcap (by simpa using hiv) (by simpa using haligned)

theorem accepted_decryptCommand (hkey : q.keyLen = 16) (hcap : q.dataLen.toNat ≤ cap)
    (hiv : cbc = true → ivp = true → q.ivLen = 8) (haligned : q.dataLen.toNat % 8 = 0) :
    Accepted cap q (decryptCommand cbc skip ivp) :=
  accepted_message (by simp) hkey hcap (by simpa using hiv) fun _ => haligned

theorem exists_cipheredBytes_encryptCommand (hq : q.wf = true) (hiv : cbc = true → ivp = true → q.ivLen = 8) :
    ∃ out, cipheredBytes k q (encryptCommand cbc skip ivp) = some out := by
  cases cbc with
  | false => exact ⟨_, rfl⟩
  | true =>
    obtain ⟨iv, hiv⟩ := exists_ivOf hq (hiv rfl)
    exact ⟨_, Option.map_eq_some_iff.mpr ⟨iv, hiv, rfl⟩⟩

/-- Deciphering what was enciphered gives the bytes that went in, block by block (R118, R147). -/
theorem cipheredBytes_decryptCommand (haligned : (encryptInput skip q.data).length % 8 = 0)
    (h : cipheredBytes k q (encryptCommand cbc skip ivp) = some out) :
    cipheredBytes k (q.withData out) (decryptCommand cbc skip ivp) = some (encryptInput skip q.data) := by
  have hinput := bytesOfBlocks_blocksOf _ haligned
  cases cbc with
  | false =>
    obtain rfl := Option.some.inj h
    refine congrArg some ?_
    rw [Request.withData, blocksOf_bytesOfBlocks, ecbDecrypt_ecbEncrypt, hinput]
  | true =>
    obtain ⟨iv, hiv, rfl⟩ := Option.map_eq_some_iff.mp h
    refine Option.map_eq_some_iff.mpr ⟨iv, hiv, ?_⟩
    rw [Request.withData, blocksOf_bytesOfBlocks, cbcDecrypt_cbcEncrypt, hinput]

theorem Request.withData_dataLen (h : out.length < 2 ^ 32) : (q.withData out).dataLen.toNat = out.length := by
  rw [Request.withData, BitVec.toNat_ofNat, Nat.mod_eq_of_lt h]

theorem transactCommand_of_cipheredBytes (hacc : Accepted cap q i) (hk : keyOfBytes q.key = some k)
    (hout : cipheredBytes k q i = some out) : transactCommand cap q i = some (responseOf (outputOf i out)) := by
  rw [transactCommand_of_key (operandError_eq_none.mpr hacc) hk, commandOutput_eq, hout]
  rfl

end

/-- Settles O52: what the encrypt puts out fits as the decrypt's data, and is deciphered to the encrypt's input, from
which Unpad strips the pad. -/
theorem decryptUndoesEncrypt : Obligations.DecryptUndoesEncrypt := by
  intro cap q cbc skip ivp hcap hq hkey hivLen hskip hpad
  obtain ⟨k, hk⟩ := keyOfBytes_of_keyLen hq hkey
  obtain ⟨c, hc⟩ := exists_cipheredBytes_encryptCommand (k := k) (skip := skip) hq hivLen
  have hfit : (encryptInput skip q.data).length ≤ cap := by
    rw [encryptInput_length, (Request.wf_iff.mp hq).2.2]
    cases skip with
    | true => exact (hskip rfl).2
    | false => exact hpad rfl
  have hdata : q.dataLen.toNat ≤ cap := by
    rw [encryptInput_length, (Request.wf_iff.mp hq).2.2] at hfit
    omega
  have hacc : Accepted cap q (encryptCommand cbc skip ivp) :=
    accepted_encryptCommand hkey hdata hivLen fun h => (hskip h).1
  have hinput : (encryptInput skip q.data).length = 8 * blocksFor q.dataLen.toNat (encryptCommand cbc skip ivp) :=
    inputOf_encryptCommand cbc skip ivp q.data ▸ inputOf_length hacc hq (isMessage_encryptCommand cbc skip ivp)
  have hout : c.length = (encryptInput skip q.data).length := (cipheredBytes_length hacc hq hc).trans hinput.symm
  have hlen : (q.withData c).dataLen.toNat = c.length := Request.withData_dataLen (by omega)
  have hacc' : Accepted cap (q.withData c) (decryptCommand cbc skip ivp) :=
    accepted_decryptCommand hkey (by omega) hivLen (by omega)
  refine ⟨c, ?_, ?_⟩
  · refine (transact_encode cap q (encryptCommand cbc skip ivp)).trans ?_
    rw [transactCommand_of_cipheredBytes hacc hk hc, outputOf_of_not_unpads (unpads_encryptCommand cbc skip ivp),
      responseOf]
  · refine (transact_encode cap (q.withData c) (decryptCommand cbc skip ivp)).trans ?_
    rw [transactCommand_of_cipheredBytes hacc' hk (cipheredBytes_decryptCommand (by omega) hc), outputOf_decryptCommand,
      responseOf]

end Sys2Proof.Machine

/-! SUPPORT. The errors of VALIDATE (60_exceptions.md R200 to R212): the VALIDATE step of the commands and of the machine,
which check gives which error, and what a response carries. -/

namespace Sys2Proof.Machine

/-! ### The VALIDATE step (R203, R205) -/

/-- Settles O16: the two outcomes of `exec_validate_next`, and `operandError_eq_validate` where the word is the command. -/
theorem validateStepOfEachCommand : Obligations.ValidateStepOfEachCommand :=
  fun _ _ hp =>
    ⟨fun hnone => (exec_validate_next hp).mpr (.inl ⟨hnone, rfl⟩),
      fun e he => (exec_validate_next hp).mpr (.inr ⟨e, he, rfl⟩),
      operandError_eq_validate⟩

/-- Settles O27: `step_validate` for any command word; no check of `validate` reads a byte field. -/
theorem validateStepReportsTheFirstError : Obligations.ValidateStepReportsTheFirstError := by
  refine ⟨fun s hp hh => ⟨fun e he => ?_, fun hnone => ?_⟩, fun cap q key iv data => rfl⟩
  · rw [step_validate hp hh, he, validateStep_some]
    exact raise_eq e s
  · rw [step_validate hp hh, hnone, validateStep_none]

/-! ### Each check and its error (R203, R206 to R212) -/

/-- Settles O28: `ite_eq_iff` takes `validate` apart check by check; a check that fails answers with its own kind, so
an error of another kind, or none, says that the check passes. -/
theorem errorsReportTheirCause : Obligations.ErrorsReportTheirCause := by
  refine ⟨fun cap q => ?_, by decide⟩
  simp only [validate, op_outside_iff, mode_outside_iff, gt_iff_lt, ite_eq_iff]
  simp only [Option.some.injEq, Error.mk.injEq, reduceCtorEq, and_true, and_false, false_and, or_false, false_or]

/-! ### What a response carries (R80, R81, R200, R202) -/

theorem transact_eq_some {cap : Nat} {q : Request} {r : Response} (h : transact cap q = some r) :
    (∃ e, r = errorResponse e) ∨ ∃ out, r = okResponse out := by
  cases hv : validate cap q with
  | some e =>
    rw [transact, hv] at h
    exact .inl ⟨e, (Option.some.inj h).symm⟩
  | none =>
    rw [transact, hv] at h
    obtain ⟨res, -, rfl⟩ := Option.map_eq_some_iff.mp h
    cases res with
    | error e => exact .inl ⟨e, rfl⟩
    | ok out => exact .inr ⟨out, rfl⟩

theorem ErrorKind.code_setWidth_le (kind : ErrorKind) : (kind.code.setWidth 32).toNat ≤ 8 := by
  cases kind <;> decide

/-- Settles O50: an error's response has its kind's code and no output, a success's has status and ERR_INFO 0. -/
theorem errorsCarryNoOutput : Obligations.ErrorsCarryNoOutput := by
  intro cap q r hr
  obtain ⟨e, rfl⟩ | ⟨out, rfl⟩ := transact_eq_some hr
  · exact ⟨e.kind.code_setWidth_le, fun h => absurd h (errorResponse_status_ne_zero e), fun _ => ⟨rfl, rfl⟩⟩
  · exact ⟨Nat.zero_le _, fun _ => rfl, fun h => absurd rfl h⟩

end Sys2Proof.Machine

/-! SUPPORT. The reset event (70_reset_and_hazards.md R230, R231). -/

namespace Sys2Proof.Machine

/-- Settles O33: by `step_reset` the step answers the reset event's state, and each clause is a field of it. -/
theorem resetEventClearsPhaseAndPorts : Obligations.ResetEventClearsPhaseAndPorts :=
  fun s rest h => ⟨resetEvent (s.setHost rest), step_reset h, rfl, rfl, rfl, rfl, rfl, rfl⟩

end Sys2Proof.Machine
